-- ==== Sys2Proof/Word.lean ====
section
/-! DEFINITION. The widths of the block (00_scope R9, R11, 30_encoding R71) and `ceil(n/8)` (R12). -/

namespace Sys2Proof

/-- A byte of a data stream, of bit storage, or of a socket buffer (R11). -/
abbrev Byte := BitVec 8

/-- A register word, an address, a count or a length (R9). -/
abbrev Word := BitVec 16

/-- A command word `CMD` (R71). -/
abbrev Cmd := BitVec 64

/-- `ceil(n/8)`, which R12 defines as `(n + 7) div 8`. -/
def ceil8 (n : Nat) : Nat := (n + 7) / 8

end Sys2Proof
end

