-- ==== Sys2Proof/Config.lean ====
section
/-! DEFINITION. What is fixed for one block, or comes from outside it: the implementation parameters of
00_scope R8 and R10, the alphabets of the event port and the chip port (10_state R44, R45), and the free
values: constants without a body, so that nothing can be proved of what they are. -/

namespace Sys2Proof

/-- The four register spaces, in the order of the SP codes (R73). -/
inductive Space where
  | di | co | ir | hr
  deriving DecidableEq, Repr

/-- The bit-addressed spaces (R22, R100). -/
inductive BitSpace where
  | di | co
  deriving DecidableEq, Repr

/-- The word-addressed spaces (R22, R100). -/
inductive WordSpace where
  | ir | hr
  deriving DecidableEq, Repr

/-- A bit space as one of the four spaces. -/
def BitSpace.space : BitSpace → Space
  | .di => .di
  | .co => .co

/-- A word space as one of the four spaces. -/
def WordSpace.space : WordSpace → Space
  | .ir => .ir
  | .hr => .hr

/-- The decoded socket status (R46). -/
inductive SockStatus where
  | closed | init | listen | established | closeWait | other
  deriving DecidableEq, Repr

/-- The engine's event type. R10 leaves it open but for three members (DESIGN CHOICE, log 11: every further
event is `other` with a code). -/
inductive Event where
  | frameReceived | execute | frameSent
  | other (code : Nat)
  deriving DecidableEq, Repr

/-- The fields of NETCFG (R27), as names, for CFG_VERIFY_FIELDS (R10). -/
inductive CfgField where
  | mac | ip | subnet | gateway | dns | port | chipBuf | retryCount | retryTimeout
  deriving DecidableEq, Repr

/-- The network configuration record (R27). CHIPBUF, RETRY_COUNT and RETRY_TIMEOUT are opaque to the block
(DESIGN CHOICE, log 13: natural numbers). -/
structure NetCfg where
  mac          : BitVec 48
  ip           : BitVec 32
  subnet       : BitVec 32
  gateway      : BitVec 32
  dns          : BitVec 32
  port         : Word
  chipBuf      : Nat
  retryCount   : Nat
  retryTimeout : Nat
  deriving DecidableEq, Repr, Inhabited

/-- The parameters a model takes as arguments (R8, R10, R48). INIT_IMAGE is not here: only reset uses it
(`Machine.Launch`). SR_CODE is a table from codes to names; a code it does not list is OTHER (log 12). -/
structure Params where
  startDI       : Nat
  qtyDI         : Nat
  startCO       : Nat
  qtyCO         : Nat
  startIR       : Nat
  qtyIR         : Nat
  startHR       : Nat
  qtyHR         : Nat
  rxBufSize     : Nat
  txBufSize     : Nat
  netcfgDefault : NetCfg
  keepalive     : Nat
  srCode        : List (Byte × SockStatus)
  verifyFields  : List CfgField
  deriving DecidableEq, Repr

/-- One transaction as the command port receives it: the command word and its data stream DIN (R70). -/
structure Command where
  word : Cmd
  din  : List Byte
  deriving DecidableEq, Repr

/-- One action of the engine inside an envelope (R150): a command, or an access to the event slot. -/
inductive EngineOp where
  | command (c : Command)
  | evRead
  | evPut (v : Option Event)
  deriving DecidableEq, Repr

/-- The chip's answers in one poll (R45). A poll asks each query at most once, so one record answers it
(log 5); an answer that is not asked for is not used. `recv` are the received bytes. -/
structure ChipAnswers where
  portActive : Bool
  readback   : NetCfg
  linkUp     : Bool
  status     : Byte
  rxReady    : Word
  recv       : List Byte
  deriving DecidableEq, Repr, Inhabited

namespace Config

/-- The default SR_CODE of R46 (PRESUMED, log 12: the spec takes it from general knowledge of WIZnet chips). -/
def defaultSrCode : List (Byte × SockStatus) :=
  [(0x00#8, .closed), (0x13#8, .init), (0x14#8, .listen), (0x17#8, .established), (0x1C#8, .closeWait)]

/-- The default CFG_VERIFY_FIELDS of R10. -/
def defaultVerifyFields : List CfgField := [.mac, .ip, .subnet, .gateway]

/-- NETCFG_DEFAULT: PORT, RETRY_COUNT and RETRY_TIMEOUT at the source's defaults (R10); the OPEN fields zero
(DESIGN CHOICE, log 3). -/
def defaultNetCfg : NetCfg :=
  { mac := 0#48, ip := 0#32, subnet := 0#32, gateway := 0#32, dns := 0#32, port := 502#16,
    chipBuf := 0, retryCount := 5, retryTimeout := 200 }

/-- The parameters `State.reset` is launched with: the spec's test configuration TC (95_test_vectors). The
spec gives no other values (DESIGN CHOICE, log 3). -/
def testConfiguration : Params :=
  { startDI := 1, qtyDI := 8, startCO := 1, qtyCO := 20, startIR := 100, qtyIR := 4, startHR := 1, qtyHR := 10,
    rxBufSize := 16, txBufSize := 16, netcfgDefault := defaultNetCfg, keepalive := 0,
    srCode := defaultSrCode, verifyFields := defaultVerifyFields }

/-- Free value: the chip's answers in a poll for which none are scripted (R45, U10, log 5). -/
opaque freeChipAnswers : Nat → ChipAnswers

/-- Free value: byte `j` of a receive for which no byte is scripted (R45, U10, log 6). -/
opaque freeRecvByte : Nat → Nat → Byte

/-- Free value: the engine's transaction in an envelope for which none is scripted (R150, U11, log 7). -/
opaque freeEngineStep : Nat → List EngineOp

end Config

end Sys2Proof
end

