-- ==== Sys2Proof/Syntax.lean ====
section
/-! DEFINITION. The commands of the block as syntax: one constructor per row of spec/opcode_table.json
(30_encoding R75). Operands are the fields the row leaves free (R71, R74); DIN is no operand of the word. -/

namespace Sys2Proof

/-- The twelve commands (R75). -/
inductive Instr where
  /-- REG.RD.DI (R110) -/
  | regRdDI (addr cnt : Word)
  /-- REG.RD.CO (R111) -/
  | regRdCO (addr cnt : Word)
  /-- REG.RD.IR (R112) -/
  | regRdIR (addr cnt : Word)
  /-- REG.RD.HR (R113) -/
  | regRdHR (addr cnt : Word)
  /-- REG.WR.DI (R114) -/
  | regWrDI (addr cnt : Word)
  /-- REG.WR.CO (R115) -/
  | regWrCO (addr cnt : Word)
  /-- REG.WR.IR (R116) -/
  | regWrIR (addr cnt : Word)
  /-- REG.WR.HR (R117) -/
  | regWrHR (addr cnt : Word)
  /-- TCP.POLL (R153) -/
  | tcpPoll
  /-- TCP.GETREQ (R154) -/
  | tcpGetReq
  /-- TCP.SETRESP (R155) -/
  | tcpSetResp (len : Word)
  /-- STAT.RD (R156) -/
  | statRd
  deriving DecidableEq, Repr

/-- The mnemonic of a command as spec/opcode_table.json spells it. -/
def Instr.mnemonic : Instr → String
  | .regRdDI _ _ => "REG.RD.DI"
  | .regRdCO _ _ => "REG.RD.CO"
  | .regRdIR _ _ => "REG.RD.IR"
  | .regRdHR _ _ => "REG.RD.HR"
  | .regWrDI _ _ => "REG.WR.DI"
  | .regWrCO _ _ => "REG.WR.CO"
  | .regWrIR _ _ => "REG.WR.IR"
  | .regWrHR _ _ => "REG.WR.HR"
  | .tcpPoll => "TCP.POLL"
  | .tcpGetReq => "TCP.GETREQ"
  | .tcpSetResp _ => "TCP.SETRESP"
  | .statRd => "STAT.RD"

end Sys2Proof
end

