-- ==== Sys2Proof/WellFormed.lean ====
section
/-! DEFINITION. What must hold before the block is used: the constraints on the build-time parameters
(00_scope R8, R10, R192). A command needs no check of its own: its operands are 16-bit by type (R9), so every
term of `Instr` has an encoding. -/

namespace Sys2Proof

/-- `0 <= START <= 65535` and `0 <= QTY <= 65536 - START` (R8). -/
def mapWf (start qty : Nat) : Bool := decide (start ≤ 65535) && decide (qty ≤ 65536 - start)

/-- A buffer holds at least one byte (R10). -/
def bufferWf (size : Nat) : Bool := decide (1 ≤ size)

/-- SR_CODE is a map with a code for CLOSED (R10, R46): no code is listed twice, and some code names CLOSED. -/
def srCodeWf (t : List (Byte × SockStatus)) : Bool :=
  decide ((t.map Prod.fst).Nodup) && t.any (fun e => decide (e.2 = .closed))

/-- CFG_VERIFY_FIELDS is a set (R10): no field is listed twice. -/
def verifyFieldsWf (fs : List CfgField) : Bool := decide fs.Nodup

/-- The parameters are fixed as R8, R10 and R192 require. -/
def Params.wf (p : Params) : Bool :=
  mapWf p.startDI p.qtyDI && mapWf p.startCO p.qtyCO && mapWf p.startIR p.qtyIR && mapWf p.startHR p.qtyHR &&
  bufferWf p.rxBufSize && bufferWf p.txBufSize && srCodeWf p.srCode && verifyFieldsWf p.verifyFields

end Sys2Proof
end

