-- ==== Sys2Proof/Decode.lean ====
section
/-! DEFINITION. The decoder of 30_encoding R76, total on words and on bytes and rejecting by name; the encoder
from R71 and R75; the opcode table of R75 as data; the assembler line of R83. -/

namespace Sys2Proof

/-- Why a word is reserved (R76), or why bytes hold no command word. -/
inductive Reserved where
  /-- fewer than the eight bytes of a command word (R82) -/
  | truncated
  /-- OPC is none of the six values of R72 (R76 step 1) -/
  | unknownOpcode
  /-- RSV0 or RSV1 is not zero (R76 step 2) -/
  | reservedBits
  /-- SP is not zero on a command without a space (R76 step 4) -/
  | spaceNotZero
  /-- CNT is not zero on a command without a count (R76 step 4) -/
  | countNotZero
  /-- ADDR is not zero on a command without an address or length (R76 step 4) -/
  | addressNotZero
  deriving DecidableEq, Repr

/-- OPC, bits 7:0 (R71). -/
def Cmd.opc (w : Cmd) : Byte := w.extractLsb' 0 8
/-- SP, bits 9:8 (R71). -/
def Cmd.sp (w : Cmd) : BitVec 2 := w.extractLsb' 8 2
/-- RSV0, bits 15:10 (R71). -/
def Cmd.rsv0 (w : Cmd) : BitVec 6 := w.extractLsb' 10 6
/-- ADDR or LEN, bits 31:16 (R71, R74). -/
def Cmd.addr (w : Cmd) : Word := w.extractLsb' 16 16
/-- CNT, bits 47:32 (R71, R74). -/
def Cmd.cnt (w : Cmd) : Word := w.extractLsb' 32 16
/-- RSV1, bits 63:48 (R71). -/
def Cmd.rsv1 (w : Cmd) : Word := w.extractLsb' 48 16

/-- The OPC values of R72. -/
def opcodes : List Byte := [0x01#8, 0x02#8, 0x10#8, 0x11#8, 0x12#8, 0x20#8]

/-- REG.RD's four mnemonics by SP (R73, R76 step 3). -/
def decodeRead (sp : BitVec 2) (addr cnt : Word) : Instr :=
  if sp = 0#2 then .regRdDI addr cnt
  else if sp = 1#2 then .regRdCO addr cnt
  else if sp = 2#2 then .regRdIR addr cnt
  else .regRdHR addr cnt

/-- REG.WR's four mnemonics by SP (R73, R76 step 3). -/
def decodeWrite (sp : BitVec 2) (addr cnt : Word) : Instr :=
  if sp = 0#2 then .regWrDI addr cnt
  else if sp = 1#2 then .regWrCO addr cnt
  else if sp = 2#2 then .regWrIR addr cnt
  else .regWrHR addr cnt

/-- The decoder, in the order of R76. -/
def decode (w : Cmd) : Except Reserved Instr :=
  if Cmd.opc w ∉ opcodes then .error .unknownOpcode
  else if Cmd.rsv0 w ≠ 0#6 ∨ Cmd.rsv1 w ≠ 0#16 then .error .reservedBits
  else if Cmd.opc w = 0x01#8 then .ok (decodeRead (Cmd.sp w) (Cmd.addr w) (Cmd.cnt w))
  else if Cmd.opc w = 0x02#8 then .ok (decodeWrite (Cmd.sp w) (Cmd.addr w) (Cmd.cnt w))
  else if Cmd.sp w ≠ 0#2 then .error .spaceNotZero
  else if Cmd.cnt w ≠ 0#16 then .error .countNotZero
  else if Cmd.opc w = 0x12#8 then .ok (.tcpSetResp (Cmd.addr w))
  else if Cmd.addr w ≠ 0#16 then .error .addressNotZero
  else if Cmd.opc w = 0x10#8 then .ok .tcpPoll
  else if Cmd.opc w = 0x11#8 then .ok .tcpGetReq
  else .ok .statRd

/-- A command word from its low 16 bits, ADDR and CNT; RSV1 is zero (R71, R75). -/
def assemble (low addr cnt : Word) : Cmd := 0#16 ++ cnt ++ addr ++ low

/-- The word of a command, from the CMD[15:0] column of R75. -/
def encode : Instr → Cmd
  | .regRdDI a n => assemble 0x0001#16 a n
  | .regRdCO a n => assemble 0x0101#16 a n
  | .regRdIR a n => assemble 0x0201#16 a n
  | .regRdHR a n => assemble 0x0301#16 a n
  | .regWrDI a n => assemble 0x0002#16 a n
  | .regWrCO a n => assemble 0x0102#16 a n
  | .regWrIR a n => assemble 0x0202#16 a n
  | .regWrHR a n => assemble 0x0302#16 a n
  | .tcpPoll => assemble 0x0010#16 0#16 0#16
  | .tcpGetReq => assemble 0x0011#16 0#16 0#16
  | .tcpSetResp len => assemble 0x0012#16 len 0#16
  | .statRd => assemble 0x0020#16 0#16 0#16

/-- One row of the opcode table: a word belongs to it when it agrees with `pattern` on the bits of `mask`. -/
structure OpcodeRow where
  mnemonic : String
  mask     : Cmd
  pattern  : Cmd
  deriving DecidableEq, Repr

/-- The opcode map of R75, row by row. -/
def opcodeTable : List OpcodeRow :=
  [⟨"REG.RD.DI", 0xFFFF00000000FFFF#64, 0x0000000000000001#64⟩,
   ⟨"REG.RD.CO", 0xFFFF00000000FFFF#64, 0x0000000000000101#64⟩,
   ⟨"REG.RD.IR", 0xFFFF00000000FFFF#64, 0x0000000000000201#64⟩,
   ⟨"REG.RD.HR", 0xFFFF00000000FFFF#64, 0x0000000000000301#64⟩,
   ⟨"REG.WR.DI", 0xFFFF00000000FFFF#64, 0x0000000000000002#64⟩,
   ⟨"REG.WR.CO", 0xFFFF00000000FFFF#64, 0x0000000000000102#64⟩] ++
  [⟨"REG.WR.IR", 0xFFFF00000000FFFF#64, 0x0000000000000202#64⟩,
   ⟨"REG.WR.HR", 0xFFFF00000000FFFF#64, 0x0000000000000302#64⟩,
   ⟨"TCP.POLL", 0xFFFFFFFFFFFFFFFF#64, 0x0000000000000010#64⟩,
   ⟨"TCP.GETREQ", 0xFFFFFFFFFFFFFFFF#64, 0x0000000000000011#64⟩,
   ⟨"TCP.SETRESP", 0xFFFFFFFF0000FFFF#64, 0x0000000000000012#64⟩,
   ⟨"STAT.RD", 0xFFFFFFFFFFFFFFFF#64, 0x0000000000000020#64⟩]

/-- A command word written as bytes, bits 63:56 first (R54). -/
def serialise (w : Cmd) : List Byte :=
  [w.extractLsb' 56 8, w.extractLsb' 48 8, w.extractLsb' 40 8, w.extractLsb' 32 8,
   w.extractLsb' 24 8, w.extractLsb' 16 8, w.extractLsb' 8 8, w.extractLsb' 0 8]

/-- The command word of eight bytes, bits 63:56 first (R54). -/
def wordOfBytes (b7 b6 b5 b4 b3 b2 b1 b0 : Byte) : Cmd := b7 ++ b6 ++ b5 ++ b4 ++ b3 ++ b2 ++ b1 ++ b0

/-- A serialised transaction: eight bytes of command word, big-endian, and the bytes after them, which are
its DIN (R54, R70). -/
def decodeBytes : List Byte → Except Reserved (Instr × List Byte)
  | b7 :: b6 :: b5 :: b4 :: b3 :: b2 :: b1 :: b0 :: din =>
    match decode (wordOfBytes b7 b6 b5 b4 b3 b2 b1 b0) with
    | .ok i => .ok (i, din)
    | .error e => .error e
  | _ => .error .truncated

/-- The word whose bits the opcode table numbers: its low `nbits` bits are those of `w`, the rest zero. -/
def tableWord (nbits w : Nat) : Cmd := BitVec.ofNat 64 (w % 2 ^ nbits)

/-- What the decoder reads from the word the opcode table numbers `w`, laid out as bytes (R54); none where it
is reserved, or where more than 64 bits are asked for (R82; log 15). -/
def decodeTableWord (nbits w : Nat) : Option Instr :=
  if 64 < nbits then none
  else
    match decodeBytes (serialise (tableWord nbits w)) with
    | .ok (i, _) => some i
    | .error _ => none

/-- DIN as an assembler line lists it, decimal bytes in brackets (R83). -/
def dinText (din : List Byte) : String :=
  " <- [" ++ String.intercalate ", " (din.map (fun b => b.toNat.repr)) ++ "]"

/-- The operands of an assembler line: `address, count` for REG.*, none otherwise (R83). -/
def operandText : Instr → String
  | .regRdDI a n | .regRdCO a n | .regRdIR a n | .regRdHR a n
  | .regWrDI a n | .regWrCO a n | .regWrIR a n | .regWrHR a n => " " ++ a.toNat.repr ++ ", " ++ n.toNat.repr
  | .tcpPoll | .tcpGetReq | .tcpSetResp _ | .statRd => ""

/-- Whether an assembler line lists data: REG.WR.* and TCP.SETRESP (R83). -/
def Instr.listsData : Instr → Bool
  | .regWrDI _ _ | .regWrCO _ _ | .regWrIR _ _ | .regWrHR _ _ | .tcpSetResp _ => true
  | .regRdDI _ _ | .regRdCO _ _ | .regRdIR _ _ | .regRdHR _ _ | .tcpPoll | .tcpGetReq | .statRd => false

/-- The assembler line of a command with its data (R83). -/
def Instr.assembly (i : Instr) (din : List Byte) : String :=
  i.mnemonic ++ operandText i ++ (if i.listsData then dinText din else "")

end Sys2Proof
end

