-- ==== Sys2Proof/Machine/StatusCode.lean ====
section
/-! DEFINITION. SR_CODE and its inverse on CLOSED (10_state R46, R29): the table of `Params.srCode` read both
ways (log 12). -/

namespace Sys2Proof.Machine

/-- `SR_CODE(code)`: the name the table gives, OTHER for a code it does not list (R46). -/
def statusOf (p : Params) (code : Byte) : SockStatus :=
  match p.srCode.find? (fun e => decide (e.1 = code)) with
  | some e => e.2
  | none => .other

/-- The code that the table names CLOSED, `SR_CODE⁻¹(CLOSED)` (R29, R132). -/
def closedCode (p : Params) : Byte :=
  match p.srCode.find? (fun e => decide (e.2 = .closed)) with
  | some e => e.1
  | none => 0#8

end Sys2Proof.Machine
end

