-- ==== Sys2Proof/Machine/State.lean ====
section
/-! DEFINITION. The state of the block (10_state R20 to R47): everything the spec names, with the state it
reaches through its ports, and the model's own fields that hold parameters and the outside world as plain data. -/

namespace Sys2Proof.Machine

/-- A storage array as a canonical sparse list: indices strictly rising, no entry equal to `Memory.blank`,
which is what an unlisted index reads as (log 14). `Memory 8` is a list of `Host.Cell`. -/
abbrev Memory (w : Nat) := List (Nat × BitVec w)

/-- What an unlisted index of any storage array reads as (DESIGN CHOICE, log 4: the spec gives no contents). -/
def Memory.blank (w : Nat) : BitVec w := 0#w

/-- The transport mode (R25): 0 is RTU, 1 is TCP. -/
inductive Mode where
  | rtu | tcp
  deriving DecidableEq, Repr

/-- The status of a response (R79). -/
inductive Status where
  | ok | noSuchRegister | illegalCommand | dataShort | respOverflow
  deriving DecidableEq, Repr

/-- A response: the status ST, and the data stream DOUT (R78). -/
structure Response where
  st   : Status
  dout : List Byte
  deriving DecidableEq, Repr

/-- The flags of `ChipOpen` (R45). -/
inductive OpenFlag where
  | noDelay | nonBlocking
  deriving DecidableEq, Repr

/-- The primitives the block issues on the chip port (R45). -/
inductive ChipOp where
  | portActive
  | programConfig (cfg : NetCfg)
  | readConfig
  | linkStatus
  | closeSocket
  | status
  | openSocket (port : Word) (flags : List OpenFlag)
  | listen
  | disconnect
  | rxReady
  | recv (n : Nat)
  | send (bytes : List Byte)
  | setKeepalive (t : Nat)
  deriving DecidableEq, Repr

/-- The reasons the block stops with a fault. There are none: every error is a status of a response or a
recorded flag, and the block has no trap (R179, log 17). -/
inductive Fault where
  deriving DecidableEq, Repr

/-- The reasons the model has no meaning for a command. -/
inductive Refusal where
  /-- Raised by an arm of `exec` whose command has no meaning yet; safe: the run stops. No arm raises it now. -/
  | notModelled (mnemonic : String)
  deriving DecidableEq, Repr

/-- The state. -/
structure State where
  /-- the build-time parameters (R8, R10): the model's own field, fixed at launch (log 2) -/
  params     : Params
  /-- BYTES_DI (R22) -/
  bytesDI    : Memory 8
  /-- BYTES_CO (R22) -/
  bytesCO    : Memory 8
  /-- WORDS_IR (R22, R24) -/
  wordsIR    : Memory 16
  /-- WORDS_HR (R22, R24) -/
  wordsHR    : Memory 16
  /-- MODE (R25) -/
  mode       : Mode
  /-- NETCFG (R27) -/
  netcfg     : NetCfg
  /-- LINK_UP (R28) -/
  linkUp     : Bool
  /-- SOCK_STATE (R29) -/
  sockState  : Byte
  /-- CONNECTED (R30) -/
  connected  : Bool
  /-- TX_EN (R31) -/
  txEn       : Bool
  /-- TX_SENT (R32) -/
  txSent     : Bool
  /-- RX_EN (R33) -/
  rxEn       : Bool
  /-- RX_RECV (R34) -/
  rxRecv     : Bool
  /-- RX_BUF (R35) -/
  rxBuf      : Memory 8
  /-- RX_LEN (R35) -/
  rxLen      : Word
  /-- TX_BUF (R36) -/
  txBuf      : Memory 8
  /-- TX_LEN (R36) -/
  txLen      : Word
  /-- SOCK_VALID (R37) -/
  sockValid  : Bool
  /-- INIT_FAILED (R38) -/
  initFailed : Bool
  /-- SVC (R39) -/
  svc        : Bool
  /-- SAVED_EVENT (R40) -/
  savedEvent : Option Event
  /-- the engine's event slot, reached through the event port (R44) -/
  slot       : Option Event
  /-- the record of chip primitives, in issue order (R45, R185) -/
  chipTrace  : List ChipOp
  /-- the commands the host has presented, oldest first (R70, log 1) -/
  pending    : List Command
  /-- DIN of the command being performed (R70, log 10) -/
  din        : List Byte
  /-- every response so far, in the order given (R70, R78, log 9) -/
  responses  : List Response
  /-- scripted chip answers, one record a poll (R45, log 5): the model's own field -/
  chip       : List ChipAnswers
  /-- the counter that free values are applied to (log 5): the model's own field -/
  draws      : Nat
  /-- scripted engine transactions, one an envelope (R150, log 7): the model's own field -/
  engine     : List (List EngineOp)
  /-- scripted slot writes by other agents, one list an interleaving point (R63, R171, log 8): the model's own -/
  outsidePuts : List (List (Option Event))
  /-- what EvRead answered the engine, in order (R44, R150, log 9): the model's own field -/
  engineReads : List (Option Event)
  deriving DecidableEq, Repr

/-- What reset leaves to the launch (R47): INIT_IMAGE, the buffers' contents, SAVED_EVENT and the event slot. -/
structure Launch where
  imageDI    : Memory 8
  imageCO    : Memory 8
  imageIR    : Memory 16
  imageHR    : Memory 16
  rxBuf      : Memory 8
  txBuf      : Memory 8
  savedEvent : Option Event
  slot       : Option Event
  deriving DecidableEq, Repr

/-- The launch of `State.reset`: nothing listed, no event (DESIGN CHOICE, log 4). -/
def Launch.empty : Launch :=
  { imageDI := [], imageCO := [], imageIR := [], imageHR := [], rxBuf := [], txBuf := [], savedEvent := none, slot := none }

/-- Reset under any parameters and any launch (R47, R190). -/
def State.resetWith (p : Params) (l : Launch) : State :=
  { params := p
    bytesDI := l.imageDI, bytesCO := l.imageCO, wordsIR := l.imageIR, wordsHR := l.imageHR
    mode := .rtu
    netcfg := p.netcfgDefault
    linkUp := false, sockState := closedCode p, connected := false
    txEn := false, txSent := false, rxEn := false, rxRecv := false
    rxBuf := l.rxBuf, rxLen := 0#16, txBuf := l.txBuf, txLen := 0#16
    sockValid := false, initFailed := false
    svc := false, savedEvent := l.savedEvent
    slot := l.slot, chipTrace := []
    pending := [], din := [], responses := []
    chip := [], draws := 0, engine := [], outsidePuts := [], engineReads := [] }

/-- The machine right after reset (R47, R190), launched with the parameters and contents of log 3 and log 4. -/
def State.reset : State := State.resetWith Config.testConfiguration Launch.empty

end Sys2Proof.Machine
end

