-- ==== Sys2Proof/Machine/Ops.lean ====
section
/-! DEFINITION. The operations the meanings share: storage arrays, the register map's arrays by space, the
response port, the event port, the chip port, and the inputs from outside. -/

namespace Sys2Proof.Machine

/-! ### Storage arrays -/

/-- The element at an index. -/
def Memory.read {w : Nat} : Memory w → Nat → BitVec w
  | [], _ => Memory.blank w
  | (a, v) :: rest, k => if a = k then v else Memory.read rest k

/-- Replace the element at an index, keeping the canonical form. -/
def Memory.write {w : Nat} : Memory w → Nat → BitVec w → Memory w
  | [], k, v => if v = Memory.blank w then [] else [(k, v)]
  | (a, x) :: rest, k, v =>
    if k < a then (if v = Memory.blank w then (a, x) :: rest else (k, v) :: (a, x) :: rest)
    else if k = a then (if v = Memory.blank w then rest else (k, v) :: rest)
    else (a, x) :: Memory.write rest k v

/-- The canonical form above a lower bound: indices rise strictly from it, no entry is blank. -/
def Memory.wfFrom {w : Nat} : Nat → Memory w → Bool
  | _, [] => true
  | lo, (a, v) :: rest => decide (lo ≤ a) && decide (v ≠ Memory.blank w) && Memory.wfFrom (a + 1) rest

/-- The canonical form (log 14). -/
def Memory.wf {w : Nat} (m : Memory w) : Bool := Memory.wfFrom 0 m

/-- Every entry lies below the array's size (R22, R35, R36). -/
def Memory.within {w : Nat} (m : Memory w) (size : Nat) : Bool := m.all (fun c => decide (c.1 < size))

/-- Element `m` of a bit space's bytes: bit `m mod 8` of byte `m div 8` (R55). -/
def Memory.readBit (m : Memory 8) (i : Nat) : Bool := (Memory.read m (i / 8)).getLsbD (i % 8)

/-- A byte with one bit replaced. -/
def setBit (b : Byte) (k : Nat) (v : Bool) : Byte :=
  if v then b ||| (1#8 <<< k) else b &&& ~~~(1#8 <<< k)

/-- Replace element `i` of a bit space's bytes, and only that bit (R55). -/
def Memory.writeBit (m : Memory 8) (i : Nat) (v : Bool) : Memory 8 :=
  Memory.write m (i / 8) (setBit (Memory.read m (i / 8)) (i % 8) v)

/-- The first `n` bytes of a buffer. -/
def Memory.readBytes (m : Memory 8) (n : Nat) : List Byte := (List.range n).map (Memory.read m)

/-- Replace the bytes of a buffer from an index on. -/
def Memory.writeBytesAt (m : Memory 8) : Nat → List Byte → Memory 8
  | _, [] => m
  | k, b :: bs => Memory.writeBytesAt (Memory.write m k b) (k + 1) bs

/-- Replace the first bytes of a buffer. -/
def Memory.writeBytes (m : Memory 8) (bs : List Byte) : Memory 8 := Memory.writeBytesAt m 0 bs

/-! ### The register map by space (R22) -/

/-- The storage bytes of a bit space. -/
def State.bits (s : State) : BitSpace → Memory 8
  | .di => s.bytesDI
  | .co => s.bytesCO

/-- Replace the storage bytes of a bit space. -/
def State.setBits (s : State) : BitSpace → Memory 8 → State
  | .di, m => { s with bytesDI := m }
  | .co, m => { s with bytesCO := m }

/-- The storage words of a word space. -/
def State.words (s : State) : WordSpace → Memory 16
  | .ir => s.wordsIR
  | .hr => s.wordsHR

/-- Replace the storage words of a word space. -/
def State.setWords (s : State) : WordSpace → Memory 16 → State
  | .ir, m => { s with wordsIR := m }
  | .hr, m => { s with wordsHR := m }

/-! ### The response port (R70, R78, R79) -/

/-- The byte ST of a status (R79). -/
def Status.code : Status → Byte
  | .ok => 0x00#8
  | .noSuchRegister => 0x01#8
  | .illegalCommand => 0x02#8
  | .dataShort => 0x03#8
  | .respOverflow => 0x04#8

/-- A response as the port moves it: ST, then DOUT (R78). -/
def Response.bytes (r : Response) : List Byte := r.st.code :: r.dout

/-- End a command with a response (R13 `respond`). -/
def State.respond (st : Status) (dout : List Byte) (s : State) : State :=
  { s with responses := s.responses ++ [⟨st, dout⟩] }

/-- An error response, the block's whole exception mechanism: a status, an empty DOUT, and no other effect
(R78, R79, R179). -/
def State.reject (st : Status) (s : State) : State := s.respond st []

/-- Take a command from the port: its data stream becomes DIN (R70). -/
def State.accept (c : Command) (s : State) : State := { s with din := c.din }

/-- Take the oldest pending command from the port (R70, log 1). -/
def State.takePending (c : Command) (rest : List Command) (s : State) : State :=
  ({ s with pending := rest } : State).accept c

/-! ### The event port (R44) -/

/-- Replace the slot's content; any previous content is lost (R44 `EvPut`). -/
def State.evPut (v : Option Event) (s : State) : State := { s with slot := v }

/-- The slot after writes in order: the last one stays (R44, R178). -/
def slotAfter (v : Option Event) (puts : List (Option Event)) : Option Event := puts.getLast?.getD v

/-- One interleaving point: the writes other agents make there, if any are scripted (R63, R171, log 8). -/
def State.outside (s : State) : State :=
  match s.outsidePuts with
  | [] => s
  | puts :: rest => { s with slot := slotAfter s.slot puts, outsidePuts := rest }

/-! ### The chip port (R45) -/

/-- Issue a primitive: it is recorded in issue order (R45). -/
def State.issue (op : ChipOp) (s : State) : State := { s with chipTrace := s.chipTrace ++ [op] }

/-- The chip's answers in the poll that starts now: the scripted record, or a free one (R45, log 5). -/
def State.chipAnswers (s : State) : ChipAnswers :=
  match s.chip with
  | [] => Config.freeChipAnswers s.draws
  | a :: _ => a

/-- Use up the answers of one poll. -/
def State.drawChip (s : State) : State := { s with chip := s.chip.tail, draws := s.draws + 1 }

/-- What `ChipRecv(m)` answers: exactly `m` bytes (R45); a byte that is not scripted is free (log 6). -/
def recvBytes (a : ChipAnswers) (draws m : Nat) : List Byte :=
  (List.range m).map (fun j => (a.recv[j]?).getD (Config.freeRecvByte draws j))

/-- The engine's transaction in the envelope that opens now: the scripted one, or a free one (R150, log 7). -/
def State.engineOps (s : State) : List EngineOp :=
  match s.engine with
  | [] => Config.freeEngineStep s.draws
  | ops :: _ => ops

/-- Use up one engine transaction. -/
def State.drawEngine (s : State) : State := { s with engine := s.engine.tail, draws := s.draws + 1 }

end Sys2Proof.Machine
end

