-- ==== Sys2Proof/Machine/Operands.lean ====
section
/-! DEFINITION. Operand forms: the address decoder (40_register_store R101), the data lengths (30_encoding R81),
bit pack and unpack with masking (R103 to R105), word pack and unpack (R107, R108), and the readback check
(41_tcp_lifecycle R133). -/

namespace Sys2Proof

/-- `START_s` (R8). -/
def Params.start (p : Params) : Space → Nat
  | .di => p.startDI
  | .co => p.startCO
  | .ir => p.startIR
  | .hr => p.startHR

/-- `QTY_s` (R8). -/
def Params.qty (p : Params) : Space → Nat
  | .di => p.qtyDI
  | .co => p.qtyCO
  | .ir => p.qtyIR
  | .hr => p.qtyHR

end Sys2Proof

namespace Sys2Proof.Machine

/-- DECODE of R101: the element index of the first element, or `NoSuchRegister`. Computed in ℕ, with no wrap
and no offset but START (R9, R74). -/
def addressDecode (p : Params) (sp : Space) (addr cnt : Word) : Option Nat :=
  if addr.toNat < p.start sp ∨ addr.toNat + cnt.toNat > p.start sp + p.qty sp then none
  else some (addr.toNat - p.start sp)

/-- How many bytes of DIN a command needs (R81, R109). -/
def dinNeeded : Instr → Nat
  | .regWrDI _ n | .regWrCO _ n => ceil8 n.toNat
  | .regWrIR _ n | .regWrHR _ n => 2 * n.toNat
  | .tcpSetResp len => len.toNat
  | .regRdDI _ _ | .regRdCO _ _ | .regRdIR _ _ | .regRdHR _ _ | .tcpPoll | .tcpGetReq | .statRd => 0

/-! ### Bits -/

/-- The byte whose bit `k` is `f k`, for `k < n`, other bits zero. -/
def packBits (f : Nat → Bool) : Nat → Byte
  | 0 => 0#8
  | n + 1 => if f n then packBits f n ||| (1#8 <<< n) else packBits f n

/-- Byte `j` of a bit read: elements `idx+8j .. idx+8j+7`, those past the count as 0 (R103). -/
def bitReadByte (m : Memory 8) (idx n j : Nat) : Byte :=
  packBits (fun k => decide (8 * j + k < n) && Memory.readBit m (idx + (8 * j + k))) 8

/-- BITREAD of R103: `ceil(n/8)` bytes. -/
def bitRead (m : Memory 8) (idx n : Nat) : List Byte :=
  (List.range (ceil8 n)).map (bitReadByte m idx n)

/-- The final-byte mask of R104: shift left, truncated to 8 bits, and back. -/
def finalMask (r : Nat) (b : Byte) : Byte := (b <<< (8 - r)) >>> (8 - r)

/-- The two-stage form of R104: gather whole bytes from `gather`, then mask the final one to
`r = n - 8*(nb-1)` bits. -/
def bitReadTwoStage (gather : Nat → Bool) (idx n : Nat) : List Byte :=
  let nb := ceil8 n
  (List.range nb).map fun j =>
    let b := packBits (fun k => gather (idx + (8 * j + k))) 8
    if j = nb - 1 then finalMask (n - 8 * (nb - 1)) b else b

/-- Write the low `n` bits of a data byte to elements `idx .. idx+n-1`. -/
def writeGroup (m : Memory 8) (idx : Nat) (b : Byte) : Nat → Memory 8
  | 0 => m
  | n + 1 => Memory.writeBit (writeGroup m idx b n) (idx + n) (b.getLsbD n)

/-- The full 8-bit groups of a bit write (R105). -/
def writeFull (m : Memory 8) (idx : Nat) (d : List Byte) : Nat → Memory 8
  | 0 => m
  | j + 1 => writeGroup (writeFull m idx d j) (idx + 8 * j) (d.getD j 0#8) 8

/-- BITWRITE of R105: the full groups, then a partial group only when the remainder is not 0 (R196). -/
def bitWrite (m : Memory 8) (idx n : Nat) (d : List Byte) : Memory 8 :=
  if n % 8 = 0 then writeFull m idx d (n / 8)
  else writeGroup (writeFull m idx d (n / 8)) (idx + 8 * (n / 8)) (d.getD (n / 8) 0#8) (n % 8)

/-! ### Words -/

/-- A word as the stream moves it, high byte first (R51). -/
def wordBytes (w : Word) : List Byte := [w.extractLsb' 8 8, w.extractLsb' 0 8]

/-- The word of two stream bytes, high byte first (R51, R108). -/
def wordOf (hi lo : Byte) : Word := hi ++ lo

/-- WORDREAD of R107: `2*n` bytes. -/
def wordRead (m : Memory 16) (idx n : Nat) : List Byte :=
  (List.range n).flatMap (fun k => wordBytes (Memory.read m (idx + k)))

/-- WORDWRITE of R108. -/
def wordWrite (m : Memory 16) (idx : Nat) (d : List Byte) : Nat → Memory 16
  | 0 => m
  | n + 1 =>
    Memory.write (wordWrite m idx d n) (idx + n) (wordOf (d.getD (2 * n) 0#8) (d.getD (2 * n + 1) 0#8))

/-! ### The readback check -/

/-- Whether one field of two configurations agrees (R133). -/
def fieldAgrees (x y : NetCfg) : CfgField → Bool
  | .mac => decide (x.mac = y.mac)
  | .ip => decide (x.ip = y.ip)
  | .subnet => decide (x.subnet = y.subnet)
  | .gateway => decide (x.gateway = y.gateway)
  | .dns => decide (x.dns = y.dns)
  | .port => decide (x.port = y.port)
  | .chipBuf => decide (x.chipBuf = y.chipBuf)
  | .retryCount => decide (x.retryCount = y.retryCount)
  | .retryTimeout => decide (x.retryTimeout = y.retryTimeout)

/-- The readback check of R133: every field of CFG_VERIFY_FIELDS agrees. -/
def readbackOk (p : Params) (readback cfg : NetCfg) : Bool := p.verifyFields.all (fieldAgrees readback cfg)

end Sys2Proof.Machine
end

