-- ==== Sys2Proof/Machine/Flags.lean ====
section
/-! DEFINITION. The status word and snapshot (10_state R41, R42), and the flag updates of a poll
(41_tcp_lifecycle R132, R134, R135, R137). -/

namespace Sys2Proof.Machine

/-- A flag at its bit of STATUS. -/
def flagAt (k : Nat) (b : Bool) : Word := if b then 1#16 <<< k else 0#16

/-- STATUS, assembled from the flags (R41). -/
def statusWord (s : State) : Word :=
  flagAt 0 s.linkUp ||| flagAt 1 s.connected ||| flagAt 2 s.txEn ||| flagAt 3 s.txSent ||| flagAt 4 s.rxEn |||
  flagAt 5 s.rxRecv ||| flagAt 6 s.initFailed ||| flagAt 7 s.sockValid ||| flagAt 8 (decide (s.mode = .tcp)) |||
  flagAt 9 s.svc

/-- The eight bytes that STAT.RD returns, multi-byte fields high byte first (R42). -/
def snapshot (s : State) : List Byte :=
  wordBytes (statusWord s) ++ [s.sockState, 0x00#8] ++ wordBytes s.rxLen ++ wordBytes s.txLen

/-- The descriptor reset (R132, R49). -/
def State.descriptorReset (s : State) : State :=
  { s with linkUp := false, sockState := closedCode s.params, connected := false,
           txEn := false, txSent := false, rxRecv := false, rxLen := 0#16, txLen := 0#16 }

/-- What a readback leaves: a mismatch marks the initialisation failed and the socket unusable (R134), a match
the reverse (R135). -/
def State.markInit (ok : Bool) (s : State) : State := { s with initFailed := !ok, sockValid := ok }

/-- What a link drop leaves (R137). -/
def State.releaseSocket (s : State) : State :=
  { s with connected := false, sockValid := false, linkUp := false }

end Sys2Proof.Machine
end

