-- ==== Sys2Proof/Machine/RegRead.lean ====
section
/-! DEFINITION. REG.RD.DI, REG.RD.CO, REG.RD.IR, REG.RD.HR (40_register_store R110 to R113). Each command has
its effect on the state, which the engine's commands use too, and its meaning, which answers it. -/

namespace Sys2Proof.Machine

/-- Read bits of a bit space (R110, R111). -/
def readBits (sp : BitSpace) (addr cnt : Word) (s : State) : State :=
  match addressDecode s.params sp.space addr cnt with
  | none => s.reject .noSuchRegister
  | some idx => s.respond .ok (bitRead (s.bits sp) idx cnt.toNat)

/-- Read words of a word space (R112, R113). -/
def readWords (sp : WordSpace) (addr cnt : Word) (s : State) : State :=
  match addressDecode s.params sp.space addr cnt with
  | none => s.reject .noSuchRegister
  | some idx => s.respond .ok (wordRead (s.words sp) idx cnt.toNat)

/-- REG.RD.DI (R110). -/
def regRdDI (addr cnt : Word) (s : State) : State := readBits .di addr cnt s

/-- REG.RD.CO (R111). -/
def regRdCO (addr cnt : Word) (s : State) : State := readBits .co addr cnt s

/-- REG.RD.IR (R112). -/
def regRdIR (addr cnt : Word) (s : State) : State := readWords .ir addr cnt s

/-- REG.RD.HR (R113). -/
def regRdHR (addr cnt : Word) (s : State) : State := readWords .hr addr cnt s

/-- The meaning of REG.RD.DI. -/
def execRegRdDI (addr cnt : Word) (s : State) : Host.Outcome State Fault Refusal := .next (regRdDI addr cnt s)

/-- The meaning of REG.RD.CO. -/
def execRegRdCO (addr cnt : Word) (s : State) : Host.Outcome State Fault Refusal := .next (regRdCO addr cnt s)

/-- The meaning of REG.RD.IR. -/
def execRegRdIR (addr cnt : Word) (s : State) : Host.Outcome State Fault Refusal := .next (regRdIR addr cnt s)

/-- The meaning of REG.RD.HR. -/
def execRegRdHR (addr cnt : Word) (s : State) : Host.Outcome State Fault Refusal := .next (regRdHR addr cnt s)

end Sys2Proof.Machine
end

