-- ==== Sys2Proof/Machine/RegWrite.lean ====
section
/-! DEFINITION. REG.WR.DI, REG.WR.CO, REG.WR.IR, REG.WR.HR (40_register_store R114 to R117). -/

namespace Sys2Proof.Machine

/-- Write bits of a bit space: the range is checked first, then the data length (R80, R109, R114, R115). -/
def writeBits (sp : BitSpace) (addr cnt : Word) (s : State) : State :=
  match addressDecode s.params sp.space addr cnt with
  | none => s.reject .noSuchRegister
  | some idx =>
    if s.din.length < ceil8 cnt.toNat then s.reject .dataShort
    else (s.setBits sp (bitWrite (s.bits sp) idx cnt.toNat s.din)).respond .ok []

/-- Write words of a word space (R80, R109, R116, R117). -/
def writeWords (sp : WordSpace) (addr cnt : Word) (s : State) : State :=
  match addressDecode s.params sp.space addr cnt with
  | none => s.reject .noSuchRegister
  | some idx =>
    if s.din.length < 2 * cnt.toNat then s.reject .dataShort
    else (s.setWords sp (wordWrite (s.words sp) idx s.din cnt.toNat)).respond .ok []

/-- REG.WR.DI (R114). -/
def regWrDI (addr cnt : Word) (s : State) : State := writeBits .di addr cnt s

/-- REG.WR.CO (R115). -/
def regWrCO (addr cnt : Word) (s : State) : State := writeBits .co addr cnt s

/-- REG.WR.IR (R116). -/
def regWrIR (addr cnt : Word) (s : State) : State := writeWords .ir addr cnt s

/-- REG.WR.HR (R117). -/
def regWrHR (addr cnt : Word) (s : State) : State := writeWords .hr addr cnt s

/-- The meaning of REG.WR.DI. -/
def execRegWrDI (addr cnt : Word) (s : State) : Host.Outcome State Fault Refusal := .next (regWrDI addr cnt s)

/-- The meaning of REG.WR.CO. -/
def execRegWrCO (addr cnt : Word) (s : State) : Host.Outcome State Fault Refusal := .next (regWrCO addr cnt s)

/-- The meaning of REG.WR.IR. -/
def execRegWrIR (addr cnt : Word) (s : State) : Host.Outcome State Fault Refusal := .next (regWrIR addr cnt s)

/-- The meaning of REG.WR.HR. -/
def execRegWrHR (addr cnt : Word) (s : State) : Host.Outcome State Fault Refusal := .next (regWrHR addr cnt s)

end Sys2Proof.Machine
end

