-- ==== Sys2Proof/Machine/TcpPort.lean ====
section
/-! DEFINITION. TCP.GETREQ, TCP.SETRESP and STAT.RD (41_tcp_lifecycle R154 to R156). -/

namespace Sys2Proof.Machine

/-- TCP.GETREQ: the received request; illegal outside an envelope (R154, R152). -/
def tcpGetReq (s : State) : State :=
  if s.svc then
    ({ s with rxRecv := false } : State).respond .ok (Memory.readBytes s.rxBuf s.rxLen.toNat)
  else s.reject .illegalCommand

/-- Load the response that phase B sends (R155). -/
def State.loadResponse (len : Word) (s : State) : State :=
  { s with txBuf := Memory.writeBytes s.txBuf (s.din.take len.toNat), txLen := len, txEn := true }

/-- TCP.SETRESP: its three errors in the order of R80; illegal outside an envelope (R155, R152). -/
def tcpSetResp (len : Word) (s : State) : State :=
  if s.svc then
    if len.toNat > s.params.txBufSize then s.reject .respOverflow
    else if s.din.length < len.toNat then s.reject .dataShort
    else (s.loadResponse len).respond .ok []
  else s.reject .illegalCommand

/-- STAT.RD: the status snapshot (R156). -/
def statRd (s : State) : State := s.respond .ok (snapshot s)

/-- The meaning of TCP.GETREQ. -/
def execTcpGetReq (s : State) : Host.Outcome State Fault Refusal := .next (tcpGetReq s)

/-- The meaning of TCP.SETRESP. -/
def execTcpSetResp (len : Word) (s : State) : Host.Outcome State Fault Refusal := .next (tcpSetResp len s)

/-- The meaning of STAT.RD. -/
def execStatRd (s : State) : Host.Outcome State Fault Refusal := .next (statRd s)

end Sys2Proof.Machine
end

