-- ==== Sys2Proof/Machine/TcpPoll.lean ====
section
/-! DEFINITION. TCP.POLL (41_tcp_lifecycle R130 to R153): the five steps of a poll and the request envelope with
the engine's transaction inside it. Each part is a function of the state, so that a poll always completes (R198). -/

namespace Sys2Proof.Machine

/-- How a step of the poll ends: the poll goes on, or it ends there (R130). -/
inductive PollPhase where
  | goOn (s : State)
  | ended (s : State)

/-! ### The engine's transaction (R150, R152) -/

/-- One command of the engine inside an envelope: its own rule, but a poll never nests (R150, R152). -/
def nestedCommand (i : Instr) (s : State) : State :=
  match i with
  | .regRdDI a n => regRdDI a n s
  | .regRdCO a n => regRdCO a n s
  | .regRdIR a n => regRdIR a n s
  | .regRdHR a n => regRdHR a n s
  | .regWrDI a n => regWrDI a n s
  | .regWrCO a n => regWrCO a n s
  | .regWrIR a n => regWrIR a n s
  | .regWrHR a n => regWrHR a n s
  | .tcpPoll => s.reject .illegalCommand
  | .tcpGetReq => tcpGetReq s
  | .tcpSetResp len => tcpSetResp len s
  | .statRd => statRd s

/-- A command word the engine presents: decoded, or rejected as reserved (R77). -/
def nestedWord (c : Command) (s : State) : State :=
  match decode c.word with
  | .error _ => (s.accept c).reject .illegalCommand
  | .ok i => nestedCommand i (s.accept c)

/-- One action of the engine; other agents may write the slot just before it (R150, R63). -/
def engineAction (op : EngineOp) (s : State) : State :=
  match op with
  | .command c => nestedWord c s.outside
  | .evRead => { s.outside with engineReads := s.outside.engineReads ++ [s.outside.slot] }
  | .evPut v => s.outside.evPut v

/-- The actions of one transaction, in order (R62, R150). -/
def engineRun (ops : List EngineOp) (s : State) : State := ops.foldl (fun t op => engineAction op t) s

/-- `EngineStep()`: exactly one transaction (R148, R150). -/
def engineStep (s : State) : State := engineRun s.engineOps s.drawEngine

/-! ### The request envelope (R148 to R151) -/

/-- Open the envelope and take the snapshot: `SVC`, `TX_SENT`, `SAVED_EVENT` (R149). -/
def State.openEnvelope (s : State) : State :=
  { s.outside with svc := true, txSent := false, savedEvent := s.outside.slot }

/-- Receive the request: `min(n, RX_BUF_SIZE)` bytes into RX_BUF (R149). -/
def State.receive (a : ChipAnswers) (s : State) : State :=
  let m := min a.rxReady.toNat s.params.rxBufSize
  { s.issue (.recv m) with
    rxBuf := Memory.writeBytes s.rxBuf (recvBytes a s.draws m)
    rxLen := BitVec.ofNat 16 m
    rxRecv := true }

/-- Force TCP mode and post FRAME_RECEIVED (R149). -/
def State.postFrame (s : State) : State :=
  { s.outside.evPut (some .frameReceived) with mode := .tcp }

/-- Envelope phase A (R149). -/
def phaseA (a : ChipAnswers) (s : State) : State := (s.openEnvelope.receive a).postFrame

/-- Send the response, if one is loaded (R151). -/
def State.sendResponse (s : State) : State :=
  if s.txEn then
    { s.issue (.send (Memory.readBytes s.txBuf s.txLen.toNat)) with txEn := false, txSent := true }
  else s

/-- Force RTU mode, restore the slot, close the envelope (R151). -/
def State.closeEnvelope (s : State) : State :=
  { s.outside.evPut s.savedEvent with mode := .rtu, svc := false }

/-- Envelope phase B (R151). -/
def phaseB (s : State) : State := s.sendResponse.closeEnvelope

/-- `SERVICE(n)`: phase A, one engine step, phase B (R148). -/
def service (a : ChipAnswers) (s : State) : State := phaseB (engineStep (phaseA a s))

/-! ### Step 1: ensure-ready (R131 to R135) -/

/-- Re-initialise the chip: descriptor reset, programming, readback (R132 to R135). -/
def reinitialise (a : ChipAnswers) (s : State) : PollPhase :=
  let t := (s.descriptorReset.issue (.programConfig s.netcfg)).issue .readConfig
  if readbackOk s.params a.readback s.netcfg then .goOn (t.markInit true) else .ended (t.markInit false)

/-- Re-initialise when no usable socket is held, or when the chip reports no active port (R131). -/
def ensureReady (a : ChipAnswers) (s : State) : PollPhase :=
  if s.sockValid then
    if a.portActive then .goOn (s.issue .portActive) else reinitialise a (s.issue .portActive)
  else reinitialise a s

/-! ### Step 2: link check (R136 to R138) -/

/-- Whether the link has dropped (R136). -/
def linkDropped (a : ChipAnswers) (s : State) : Bool := !a.linkUp && (s.linkUp || s.connected)

/-- Query the link; release the socket on a drop (R137), else record the link (R138). -/
def linkCheck (a : ChipAnswers) (s : State) : PollPhase :=
  if linkDropped a s then .ended ((s.issue .linkStatus).issue .closeSocket).releaseSocket
  else .goOn { s.issue .linkStatus with linkUp := a.linkUp }

/-! ### Step 3: the status state machine (R139 to R146) -/

/-- CLOSED (R140). -/
def onClosed (s : State) : State :=
  ({ s with connected := false } : State).issue (.openSocket s.netcfg.port [.noDelay, .nonBlocking])

/-- INIT (R141). -/
def onInit (s : State) : State := s.issue .listen

/-- ESTABLISHED: serve a waiting request, then refresh the keepalive (R143, R146, R148). -/
def onEstablished (a : ChipAnswers) (s : State) : State :=
  let t := ({ s with connected := true } : State).issue .rxReady
  (if a.rxReady.toNat > 0 then service a t else t).issue (.setKeepalive s.params.keepalive)

/-- CLOSE_WAIT (R144). -/
def onCloseWait (s : State) : State := s.issue .disconnect

/-- The one action of a poll, by the decoded status (R139 to R145). -/
def statusAction (a : ChipAnswers) (st : SockStatus) (s : State) : State :=
  match st with
  | .closed => onClosed s
  | .init => onInit s
  | .listen => s
  | .established => onEstablished a s
  | .closeWait => onCloseWait s
  | .other => s

/-- Read, record and decode the status, and act on it (R139). -/
def statusStep (a : ChipAnswers) (s : State) : State :=
  statusAction a (statusOf s.params a.status) { s.issue .status with sockState := a.status }

/-! ### The poll (R130, R153) -/

/-- The steps of one poll under the chip's answers, in the order of R130. -/
def pollSteps (a : ChipAnswers) (s : State) : State :=
  match ensureReady a s with
  | .ended t => t
  | .goOn t =>
    match linkCheck a t with
    | .ended u => u
    | .goOn u => statusStep a u

/-- TCP.POLL: illegal inside an envelope (R152), else one poll, always answered OK (R153, R159). -/
def tcpPoll (s : State) : State :=
  if s.svc then s.reject .illegalCommand
  else (pollSteps s.chipAnswers s.drawChip).respond .ok []

/-- The meaning of TCP.POLL. -/
def execTcpPoll (s : State) : Host.Outcome State Fault Refusal := .next (tcpPoll s)

end Sys2Proof.Machine
end

