-- ==== Sys2Proof/Machine/Dispatch.lean ====
section
/-! DEFINITION. One arm per command: its meaning. -/

namespace Sys2Proof.Machine

/-- What a command does (one arm per row of spec/opcode_table.json). -/
def exec (i : Instr) (s : State) : Host.Outcome State Fault Refusal :=
  match i with
  | .regRdDI addr cnt => Sys2Proof.Machine.execRegRdDI addr cnt s
  | .regRdCO addr cnt => Sys2Proof.Machine.execRegRdCO addr cnt s
  | .regRdIR addr cnt => Sys2Proof.Machine.execRegRdIR addr cnt s
  | .regRdHR addr cnt => Sys2Proof.Machine.execRegRdHR addr cnt s
  | .regWrDI addr cnt => Sys2Proof.Machine.execRegWrDI addr cnt s
  | .regWrCO addr cnt => Sys2Proof.Machine.execRegWrCO addr cnt s
  | .regWrIR addr cnt => Sys2Proof.Machine.execRegWrIR addr cnt s
  | .regWrHR addr cnt => Sys2Proof.Machine.execRegWrHR addr cnt s
  | .tcpPoll => Sys2Proof.Machine.execTcpPoll s
  | .tcpGetReq => Sys2Proof.Machine.execTcpGetReq s
  | .tcpSetResp len => Sys2Proof.Machine.execTcpSetResp len s
  | .statRd => Sys2Proof.Machine.execStatRd s

end Sys2Proof.Machine
end

