-- ==== Sys2Proof/Machine/Fetch.lean ====
section
/-! DEFINITION. How the block comes by its next command (30_encoding R70, R77; log 1). -/

namespace Sys2Proof.Machine

/-- The oldest command the host has presented, and the state once the port has taken it; none while the port is
idle. -/
def State.fetch (s : State) : Option (Command × State) :=
  match s.pending with
  | [] => none
  | c :: rest => some (c, s.takePending c rest)

/-- A reserved word: ILLEGAL_COMMAND, with no effect (R77). -/
def State.rejectReserved (s : State) : State := s.reject .illegalCommand

/-- Present a command word with an empty data stream as the next command. -/
def State.present (w : Cmd) (s : State) : State := { s with pending := ⟨w, []⟩ :: s.pending }

end Sys2Proof.Machine
end

