-- ==== Sys2Proof/Machine/Step.lean ====
section
/-! DEFINITION. One step: the block performs the oldest pending command to completion (00_scope R7, R70). -/

namespace Sys2Proof.Machine

/-- Other agents may write the event slot (R63, R171); then the next command is performed. Between commands the
block is idle and keeps all state (R186); a reserved word is illegal (R77). -/
def step (s : State) : Host.Outcome State Fault Refusal :=
  match s.outside.fetch with
  | none => .next s.outside
  | some (c, t) =>
    match decode c.word with
    | .error _ => .next t.rejectReserved
    | .ok i => exec i t

/-- The command word that the opcode table numbers `w`, presented as the next command with no data (log 1). -/
def State.withFetchWord (s : State) (nbits w : Nat) : State := s.present (tableWord nbits w)

end Sys2Proof.Machine
end

