-- ==== Sys2Proof/Safety.lean ====
section
/-! DEFINITION. What counts as a sound state and a safe run, in the terms the statements use. -/

namespace Sys2Proof.Machine

/-- What holds in every state, inside an envelope and outside: parameters as R8 and R10 require; every array in
canonical form and within its size (R22, R35, R36); NETCFG as reset left it (R27); RX_EN at 0 (R33); lengths
within their buffers (R35, R36); the lifecycle bookkeeping consistent (R37, R38). -/
structure State.Sound (s : State) : Prop where
  params     : s.params.wf = true
  wfDI       : s.bytesDI.wf = true
  wfCO       : s.bytesCO.wf = true
  wfIR       : s.wordsIR.wf = true
  wfHR       : s.wordsHR.wf = true
  wfRx       : s.rxBuf.wf = true
  wfTx       : s.txBuf.wf = true
  withinDI   : s.bytesDI.within (ceil8 s.params.qtyDI) = true
  withinCO   : s.bytesCO.within (ceil8 s.params.qtyCO) = true
  withinIR   : s.wordsIR.within s.params.qtyIR = true
  withinHR   : s.wordsHR.within s.params.qtyHR = true
  withinRx   : s.rxBuf.within s.params.rxBufSize = true
  withinTx   : s.txBuf.within s.params.txBufSize = true
  netcfg     : s.netcfg = s.params.netcfgDefault
  rxEn       : s.rxEn = false
  rxLen      : s.rxLen.toNat ≤ s.params.rxBufSize
  txLen      : s.txLen.toNat ≤ s.params.txBufSize
  notFailed  : s.sockValid = true → s.initFailed = false
  connected  : s.connected = true → s.sockValid = true
  linkUp     : s.linkUp = true → s.sockValid = true

/-- What holds between commands: sound, no envelope open, RTU mode, no response waiting to be sent (R157). -/
structure State.Inv (s : State) : Prop extends s.Sound where
  svc   : s.svc = false
  mode  : s.mode = .rtu
  txEn  : s.txEn = false

/-- What holds while the engine runs inside an envelope: sound, the envelope open, TCP mode (R149, R157). -/
structure State.InEnvelope (s : State) : Prop extends s.Sound where
  svc   : s.svc = true
  mode  : s.mode = .tcp

/-- A launch that fits its parameters: canonical contents within the sizes of R22, R35 and R36. -/
def Launch.wf (p : Params) (l : Launch) : Bool :=
  l.imageDI.wf && l.imageCO.wf && l.imageIR.wf && l.imageHR.wf && l.rxBuf.wf && l.txBuf.wf &&
  l.imageDI.within (ceil8 p.qtyDI) && l.imageCO.within (ceil8 p.qtyCO) && l.imageIR.within p.qtyIR &&
  l.imageHR.within p.qtyHR && l.rxBuf.within p.rxBufSize && l.txBuf.within p.txBufSize

/-- An outcome that goes on: a safe step. -/
def Completes (o : Host.Outcome State Fault Refusal) : Prop := ∃ t, o = .next t

/-! ### Register requests -/

/-- A request passes exactly when it lies inside its space, compared in ℕ (R101). -/
abbrev InRange (p : Params) (sp : Space) (addr cnt : Word) : Prop :=
  p.start sp ≤ addr.toNat ∧ addr.toNat + cnt.toNat ≤ p.start sp + p.qty sp

/-- REG.RD of a space (R73). -/
def readInstr : Space → Word → Word → Instr
  | .di => .regRdDI
  | .co => .regRdCO
  | .ir => .regRdIR
  | .hr => .regRdHR

/-- REG.WR of a space (R73). -/
def writeInstr : Space → Word → Word → Instr
  | .di => .regWrDI
  | .co => .regWrCO
  | .ir => .regWrIR
  | .hr => .regWrHR

/-- CMD[15:0] of REG.RD of a space (R75). -/
def readLow : Space → Word
  | .di => 0x0001#16
  | .co => 0x0101#16
  | .ir => 0x0201#16
  | .hr => 0x0301#16

/-- CMD[15:0] of REG.WR of a space (R75). -/
def writeLow : Space → Word
  | .di => 0x0002#16
  | .co => 0x0102#16
  | .ir => 0x0202#16
  | .hr => 0x0302#16

/-! ### Polls -/

/-- Every field that the readback compares agrees (R133). -/
abbrev ReadbackAgrees (p : Params) (readback cfg : NetCfg) : Prop :=
  ∀ f ∈ p.verifyFields, fieldAgrees readback cfg f = true

/-- The poll finds a usable socket and an active port, so it does not re-initialise the chip (R131). -/
abbrev SocketReady (a : ChipAnswers) (s : State) : Prop := s.sockValid = true ∧ a.portActive = true

/-- The link is down, and it or the socket was connected (R136). -/
abbrev LinkDrops (a : ChipAnswers) (s : State) : Prop := a.linkUp = false ∧ (s.linkUp = true ∨ s.connected = true)

/-- The poll reaches step 3: the chip is ready and the link has not dropped, or the chip is re-initialised with
a matching readback, which clears both flags that a drop needs (R131 to R138). -/
abbrev ReachesStatus (a : ChipAnswers) (s : State) : Prop :=
  (SocketReady a s ∧ ¬ LinkDrops a s) ∨ (¬ SocketReady a s ∧ ReadbackAgrees s.params a.readback s.netcfg)

/-- The state in which a poll that reaches step 3 has read the status code (R131 to R139). -/
def State.atStatus (a : ChipAnswers) (s : State) : State :=
  if SocketReady a s then
    { s with linkUp := a.linkUp, sockState := a.status,
             chipTrace := s.chipTrace ++ [.portActive, .linkStatus, .status] }
  else
    { s with linkUp := a.linkUp, sockState := a.status, connected := false, txEn := false, txSent := false,
             rxRecv := false, rxLen := 0#16, txLen := 0#16, initFailed := false, sockValid := true,
             chipTrace := s.chipTrace ++ (if s.sockValid then [.portActive] else []) ++
               [.programConfig s.netcfg, .readConfig, .linkStatus, .status] }

/-- The poll opens an envelope: it reads ESTABLISHED and bytes are waiting (R143, R148). -/
abbrev OpensEnvelope (a : ChipAnswers) (s : State) : Prop :=
  ReachesStatus a s ∧ statusOf s.params a.status = .established ∧ 0 < a.rxReady.toNat

end Sys2Proof.Machine
end

