-- ==== Sys2Proof/Certificates/Slice0/Obligations.lean ====
section
/-! DEFINITION. The statements for the provers. Each docstring names the rules of spec/ it formalises. The chip's
answers, the engine's transactions and the other agents' slot writes stand in the state, so a statement for every
state holds for every chip, every engine and every interleaving (log 5, log 7, log 8). -/

open Sys2Proof Sys2Proof.Machine

/-! ### Encoding -/

/-- Words written out from the opcode map R75, among them V-E1 to V-E15 of 95_test_vectors, read as the spec says. -/
def Obligations.DecodeReadsSpecWords : Prop :=
  decode 0x0000000500010001#64 = .ok (.regRdDI 1#16 5#16) ∧
  decode 0x0000000800060101#64 = .ok (.regRdCO 6#16 8#16) ∧
  decode 0x0000000100670201#64 = .ok (.regRdIR 103#16 1#16) ∧
  decode 0x0000000200010301#64 = .ok (.regRdHR 1#16 2#16) ∧
  decode 0x0000000500010002#64 = .ok (.regWrDI 1#16 5#16) ∧
  decode 0x0000000A00040102#64 = .ok (.regWrCO 4#16 10#16) ∧
  decode 0x0000000100670202#64 = .ok (.regWrIR 103#16 1#16) ∧
  decode 0x0000000200010302#64 = .ok (.regWrHR 1#16 2#16) ∧
  decode 0x0000000000000010#64 = .ok .tcpPoll ∧
  decode 0x0000000000000011#64 = .ok .tcpGetReq ∧
  decode 0x0000000000050012#64 = .ok (.tcpSetResp 5#16) ∧
  decode 0x0000000000000020#64 = .ok .statRd ∧
  decode 0x0000000000000003#64 = .error .unknownOpcode ∧
  decode 0x0000000500010401#64 = .error .reservedBits ∧
  decode 0x0001000500010001#64 = .error .reservedBits ∧
  decode 0x0000000000000110#64 = .error .spaceNotZero ∧
  decode 0x0000000100000012#64 = .error .countNotZero ∧
  decode 0x0000000000010010#64 = .error .addressNotZero

/-- Every command, written as eight big-endian bytes with any data after them (R54), decodes to itself and its data.
-/
def Obligations.DecodeInvertsEncode : Prop :=
  ∀ (i : Instr) (din : List Byte), decodeBytes (serialise (encode i) ++ din) = .ok (i, din)

/-- R75: a word is valid exactly when one row of the opcode map matches it on the mask; the row's mnemonic is the
command's, the word is the command's encoding, and no two rows match one word. -/
def Obligations.ValidWordsMatchOneRow : Prop :=
  (∀ w : Cmd, (∃ i, decode w = .ok i) ↔ ∃ r ∈ opcodeTable, w &&& r.mask = r.pattern) ∧
  (∀ (w : Cmd) (i : Instr), decode w = .ok i →
    encode i = w ∧ ∃ r ∈ opcodeTable, w &&& r.mask = r.pattern ∧ r.mnemonic = i.mnemonic) ∧
  (∀ (w : Cmd), ∀ r ∈ opcodeTable, ∀ r' ∈ opcodeTable,
    w &&& r.mask = r.pattern → w &&& r'.mask = r'.pattern → r = r')

/-! ### Steps -/

/-- A step performs the oldest pending command: it is `exec` of the decoded command, after the writes of other
agents at its start, on the state with the command taken and its data as DIN. With nothing pending the block is
idle. That commands stand in a list is the model's (log 1), so is that other agents write at the start of a step
(log 8) and that DIN is kept as a field (log 10). -/
def Obligations.StepRunsDecodedCommand : Prop :=
  (∀ (s : State) (c : Command) (rest : List Command) (i : Instr), s.pending = c :: rest → decode c.word = .ok i →
    step s = exec i { s.outside with pending := rest, din := c.din }) ∧
  (∀ s : State, s.pending = [] → step s = .next s.outside)

/-- The word of any command, placed by `withFetchWord`, is the command that the next step runs, with no data.
Placing a word is the model's way of loading a program (log 1). -/
def Obligations.PlacedWordRuns : Prop :=
  ∀ (s : State) (i : Instr), s.outsidePuts = [] →
    step (s.withFetchWord 64 (encode i).toNat) = exec i { s with din := [] }

/-- Other agents' writes at one interleaving point take effect in order, the last one stays, and nothing but the
slot changes (R44, R63, R171, R178). The interleaving points are the model's (log 8). -/
def Obligations.OutsideWritesLastWins : Prop :=
  (∀ s : State, s.outsidePuts = [] → s.outside = s) ∧
  (∀ (s : State) (rest : List (List (Option Event))), s.outsidePuts = [] :: rest →
    s.outside = { s with outsidePuts := rest }) ∧
  (∀ (s : State) (puts : List (Option Event)) (v : Option Event) (rest : List (List (Option Event))),
    s.outsidePuts = (puts ++ [v]) :: rest → s.outside = { s with slot := v, outsidePuts := rest })

/-- R77, R172: a reserved word, and a command illegal in the current state, is answered ILLEGAL_COMMAND with an empty
DOUT and nothing else changes: no chip primitive, no slot access. -/
def Obligations.IllegalCommandsHaveNoEffect : Prop :=
  Status.illegalCommand.code = 0x02#8 ∧
  (∀ (s : State) (c : Command) (rest : List Command), s.pending = c :: rest → (∀ i, decode c.word ≠ .ok i) →
    step s = .next { s.outside with pending := rest, din := c.din,
                                    responses := s.responses ++ [⟨.illegalCommand, []⟩] }) ∧
  (∀ s : State, s.svc = false →
    exec .tcpGetReq s = .next { s with responses := s.responses ++ [⟨.illegalCommand, []⟩] }) ∧
  (∀ (s : State) (len : Word), s.svc = false →
    exec (.tcpSetResp len) s = .next { s with responses := s.responses ++ [⟨.illegalCommand, []⟩] }) ∧
  (∀ s : State, s.svc = true →
    exec .tcpPoll s = .next { s with responses := s.responses ++ [⟨.illegalCommand, []⟩] })

/-- Rests on R147 and R198: every step completes, and so does every command in every state. -/
def Obligations.EveryStepCompletes : Prop :=
  (∀ s : State, Completes (step s)) ∧ (∀ (i : Instr) (s : State), Completes (exec i s))

/-- R79, R80: of the error causes that apply to a command the block reports the first in the order ILLEGAL_COMMAND,
NO_SUCH_REGISTER, RESP_OVERFLOW, DATA_SHORT, and an error has no other effect; without an error cause the status is
OK. The codes are those of R79, and no other is returned. Every earlier response is kept; only a poll adds others
before its own (log 9). -/
def Obligations.FirstErrorReportedWithoutEffect : Prop :=
  (Status.ok.code = 0x00#8 ∧ Status.noSuchRegister.code = 0x01#8 ∧ Status.illegalCommand.code = 0x02#8 ∧
    Status.dataShort.code = 0x03#8 ∧ Status.respOverflow.code = 0x04#8 ∧ ∀ st : Status, st.code.toNat ≤ 4) ∧
  (∀ (s : State) (c : Command) (rest : List Command), s.pending = c :: rest → (∀ i, decode c.word ≠ .ok i) →
    step s = .next { s.outside with pending := rest, din := c.din,
                                    responses := s.responses ++ [⟨.illegalCommand, []⟩] }) ∧
  ∀ (i : Instr) (s : State) (e : Option Status),
    e = (match i with
      | .regRdDI a n => if InRange s.params .di a n then none else some .noSuchRegister
      | .regRdCO a n => if InRange s.params .co a n then none else some .noSuchRegister
      | .regRdIR a n => if InRange s.params .ir a n then none else some .noSuchRegister
      | .regRdHR a n => if InRange s.params .hr a n then none else some .noSuchRegister
      | .regWrDI a n =>
        if ¬ InRange s.params .di a n then some .noSuchRegister
        else if s.din.length < (n.toNat + 7) / 8 then some .dataShort else none
      | .regWrCO a n =>
        if ¬ InRange s.params .co a n then some .noSuchRegister
        else if s.din.length < (n.toNat + 7) / 8 then some .dataShort else none
      | .regWrIR a n =>
        if ¬ InRange s.params .ir a n then some .noSuchRegister
        else if s.din.length < 2 * n.toNat then some .dataShort else none
      | .regWrHR a n =>
        if ¬ InRange s.params .hr a n then some .noSuchRegister
        else if s.din.length < 2 * n.toNat then some .dataShort else none
      | .tcpPoll => if s.svc then some .illegalCommand else none
      | .tcpGetReq => if s.svc then none else some .illegalCommand
      | .tcpSetResp len =>
        if ¬ s.svc then some .illegalCommand
        else if s.params.txBufSize < len.toNat then some .respOverflow
        else if s.din.length < len.toNat then some .dataShort else none
      | .statRd => none) →
    (∀ st, e = some st → exec i s = .next { s with responses := s.responses ++ [⟨st, []⟩] }) ∧
    (e = none → ∃ t nested dout, exec i s = .next t ∧ t.responses = s.responses ++ nested ++ [⟨.ok, dout⟩] ∧
      (i ≠ .tcpPoll → nested = []))

/-- R78: every command adds one response of its own, last, ST followed by DOUT; DOUT is empty unless the status is
OK, and with OK it has the length of R81's table. Only TCP.POLL adds others, those of the engine's commands inside
it (R70); they were given earlier and stand before it (log 9). -/
def Obligations.ResponseLengths : Prop :=
  ∀ (i : Instr) (s : State), ∃ t nested r, exec i s = .next t ∧ t.responses = s.responses ++ nested ++ [r] ∧
    (i ≠ .tcpPoll → nested = []) ∧
    r.bytes = r.st.code :: r.dout ∧ (r.st ≠ .ok → r.dout = []) ∧
    (r.st = .ok → r.dout.length = match i with
      | .regRdDI _ n | .regRdCO _ n => (n.toNat + 7) / 8
      | .regRdIR _ n | .regRdHR _ n => 2 * n.toNat
      | .tcpGetReq => s.rxLen.toNat
      | .statRd => 8
      | .regWrDI _ _ | .regWrCO _ _ | .regWrIR _ _ | .regWrHR _ _ | .tcpPoll | .tcpSetResp _ => 0)

/-- Rests on R81: the length of data each command needs, and that bytes of DIN beyond it are ignored: they change
nothing but DIN itself. -/
def Obligations.ExtraDataIgnored : Prop :=
  (∀ i : Instr, dinNeeded i = match i with
    | .regWrDI _ n | .regWrCO _ n => (n.toNat + 7) / 8
    | .regWrIR _ n | .regWrHR _ n => 2 * n.toNat
    | .tcpSetResp len => len.toNat
    | .regRdDI _ _ | .regRdCO _ _ | .regRdIR _ _ | .regRdHR _ _ | .tcpPoll | .tcpGetReq | .statRd => 0) ∧
  ∀ (i : Instr) (s : State) (extra : List Byte), dinNeeded i ≤ s.din.length →
    ∃ t t', exec i s = .next t ∧ exec i { s with din := s.din ++ extra } = .next t' ∧
      t' = { t with din := t'.din }

/-! ### The register store -/

/-- R101: the address decoder passes exactly the requests inside the space, compared without wrap; its index is
`A - START`, at most QTY, and every element covered lies below QTY. A request that does not pass is answered
NO_SUCH_REGISTER. -/
def Obligations.AddressDecoderExact : Prop :=
  ∀ (p : Params) (sp : Space) (a n : Word),
    ((∃ idx, addressDecode p sp a n = some idx) ↔
      p.start sp ≤ a.toNat ∧ a.toNat + n.toNat ≤ p.start sp + p.qty sp) ∧
    (∀ idx, addressDecode p sp a n = some idx →
      idx = a.toNat - p.start sp ∧ idx ≤ p.qty sp ∧ ∀ k, k < n.toNat → idx + k < p.qty sp) ∧
    (∀ s : State, s.params = p → addressDecode p sp a n = none →
      exec (readInstr sp a n) s = .next { s with responses := s.responses ++ [⟨.noSuchRegister, []⟩] } ∧
      exec (writeInstr sp a n) s = .next { s with responses := s.responses ++ [⟨.noSuchRegister, []⟩] })

/-- R102, R170: a REG command outside its space is answered NO_SUCH_REGISTER (code 0x01) with an empty DOUT, whatever
its data, and nothing else changes. -/
def Obligations.OutOfRangeRejectedWhole : Prop :=
  Status.noSuchRegister.code = 0x01#8 ∧
  ∀ (s : State) (sp : Space) (a n : Word),
    (a.toNat < s.params.start sp ∨ a.toNat + n.toNat > s.params.start sp + s.params.qty sp) →
    exec (readInstr sp a n) s = .next { s with responses := s.responses ++ [⟨.noSuchRegister, []⟩] } ∧
    exec (writeInstr sp a n) s = .next { s with responses := s.responses ++ [⟨.noSuchRegister, []⟩] }

/-- R55: the element index is `address - START`, below QTY where an element is addressed; element `i` of a bit space
is bit `i mod 8` of storage byte `i div 8`, and writing it replaces only that bit; a word space's write replaces that
whole word and no other. The spaces are BYTES_DI, BYTES_CO, WORDS_IR and WORDS_HR. -/
def Obligations.ElementLayout : Prop :=
  (∀ (p : Params) (sp : Space) (a n : Word) (idx : Nat), addressDecode p sp a n = some idx →
    idx = a.toNat - p.start sp ∧ (1 ≤ n.toNat → idx < p.qty sp)) ∧
  (∀ s : State, s.bits .di = s.bytesDI ∧ s.bits .co = s.bytesCO ∧ s.words .ir = s.wordsIR ∧ s.words .hr = s.wordsHR) ∧
  (∀ (m : Memory 8) (i : Nat), m.readBit i = (m.read (i / 8)).getLsbD (i % 8)) ∧
  (∀ (m : Memory 8) (i : Nat) (v : Bool) (j : Nat), m.wf = true →
    (m.writeBit i v).readBit j = if j = i then v else m.readBit j) ∧
  (∀ (m : Memory 16) (i : Nat) (v : Word) (j : Nat), m.wf = true →
    (m.write i v).read j = if j = i then v else m.read j)

/-- R103, R110, R111: a bit read in range is answered OK with `ceil(N/8)` bytes whose bit `8j+k` is the element
`idx+8j+k` for `8j+k < N` and 0 beyond, and nothing else changes; out of range it is rejected. The command words
are those of R75. -/
def Obligations.BitReadReturnsElements : Prop :=
  (∀ sp : BitSpace, ∀ a n : Word, encode (readInstr sp.space a n) = 0#16 ++ n ++ a ++ readLow sp.space) ∧
  ∀ (s : State) (sp : BitSpace) (a n : Word),
    (InRange s.params sp.space a n →
      ∃ bytes : List Byte,
        exec (readInstr sp.space a n) s = .next { s with responses := s.responses ++ [⟨.ok, bytes⟩] } ∧
        bytes.length = (n.toNat + 7) / 8 ∧
        ∀ j < bytes.length, ∀ k < 8, (bytes.getD j 0#8).getLsbD k =
          (decide (8 * j + k < n.toNat) &&
            (s.bits sp).readBit (a.toNat - s.params.start sp.space + (8 * j + k)))) ∧
    (¬ InRange s.params sp.space a n →
      exec (readInstr sp.space a n) s = .next { s with responses := s.responses ++ [⟨.noSuchRegister, []⟩] })

/-- R107, R112, R113: a word read in range is answered OK with `2N` bytes, word `k` high byte first, and nothing else
changes; out of range it is rejected. -/
def Obligations.WordReadReturnsWords : Prop :=
  (∀ sp : WordSpace, ∀ a n : Word, encode (readInstr sp.space a n) = 0#16 ++ n ++ a ++ readLow sp.space) ∧
  ∀ (s : State) (sp : WordSpace) (a n : Word),
    (InRange s.params sp.space a n →
      ∃ bytes : List Byte,
        exec (readInstr sp.space a n) s = .next { s with responses := s.responses ++ [⟨.ok, bytes⟩] } ∧
        bytes.length = 2 * n.toNat ∧
        ∀ k < n.toNat, ∃ w : Word, w = (s.words sp).read (a.toNat - s.params.start sp.space + k) ∧
          bytes.getD (2 * k) 0#8 = w.extractLsb' 8 8 ∧ bytes.getD (2 * k + 1) 0#8 = w.extractLsb' 0 8) ∧
    (¬ InRange s.params sp.space a n →
      exec (readInstr sp.space a n) s = .next { s with responses := s.responses ++ [⟨.noSuchRegister, []⟩] })

/-- R104: the two-stage form (gather whole bytes, elements past the count as anything, then mask the final byte by
truncating shifts) gives the same bytes; the mask is AND with `2^r - 1`, and `1 <= r <= 8` whenever N >= 1. -/
def Obligations.TwoStageReadAgrees : Prop :=
  (∀ (m : Memory 8) (gather : Nat → Bool) (idx n : Nat),
    (∀ i, idx ≤ i → i < idx + n → gather i = m.readBit i) → bitReadTwoStage gather idx n = bitRead m idx n) ∧
  (∀ (r : Nat) (b : Byte), r ≤ 8 → finalMask r b = b &&& BitVec.ofNat 8 (2 ^ r - 1)) ∧
  (∀ n : Nat, 1 ≤ n → 1 ≤ n - 8 * ((n + 7) / 8 - 1) ∧ n - 8 * ((n + 7) / 8 - 1) ≤ 8)

/-- R105, R106, R114, R115: a bit write in range with enough data is answered OK and changes exactly the elements
`idx .. idx+N-1` of its space, each to its data bit; every other bit of the space (padding bits among them) and
everything else keeps its value. Out of range, or with too little data, nothing is written. -/
def Obligations.BitWriteChangesExactlyItsElements : Prop :=
  (∀ sp : BitSpace, ∀ a n : Word, encode (writeInstr sp.space a n) = 0#16 ++ n ++ a ++ writeLow sp.space) ∧
  ∀ (s : State) (sp : BitSpace) (a n : Word), (s.bits sp).wf = true →
    (InRange s.params sp.space a n → (n.toNat + 7) / 8 ≤ s.din.length →
      ∃ m : Memory 8,
        exec (writeInstr sp.space a n) s =
          .next { s.setBits sp m with responses := s.responses ++ [⟨.ok, []⟩] } ∧
        m.wf = true ∧
        ∀ i, m.readBit i =
          let idx := a.toNat - s.params.start sp.space
          if idx ≤ i ∧ i < idx + n.toNat then (s.din.getD ((i - idx) / 8) 0#8).getLsbD ((i - idx) % 8)
          else (s.bits sp).readBit i) ∧
    (¬ InRange s.params sp.space a n →
      exec (writeInstr sp.space a n) s = .next { s with responses := s.responses ++ [⟨.noSuchRegister, []⟩] }) ∧
    (InRange s.params sp.space a n → s.din.length < (n.toNat + 7) / 8 →
      exec (writeInstr sp.space a n) s = .next { s with responses := s.responses ++ [⟨.dataShort, []⟩] })

/-- R108, R116, R117: a word write in range with enough data is answered OK and changes exactly the words
`idx .. idx+N-1` of its space, each to its byte pair, high byte first; everything else keeps its value. Out of
range, or with too little data, nothing is written. -/
def Obligations.WordWriteChangesExactlyItsWords : Prop :=
  (∀ sp : WordSpace, ∀ a n : Word, encode (writeInstr sp.space a n) = 0#16 ++ n ++ a ++ writeLow sp.space) ∧
  ∀ (s : State) (sp : WordSpace) (a n : Word), (s.words sp).wf = true →
    (InRange s.params sp.space a n → 2 * n.toNat ≤ s.din.length →
      ∃ m : Memory 16,
        exec (writeInstr sp.space a n) s =
          .next { s.setWords sp m with responses := s.responses ++ [⟨.ok, []⟩] } ∧
        m.wf = true ∧
        ∀ i, m.read i =
          let idx := a.toNat - s.params.start sp.space
          if idx ≤ i ∧ i < idx + n.toNat then s.din.getD (2 * (i - idx)) 0#8 ++ s.din.getD (2 * (i - idx) + 1) 0#8
          else (s.words sp).read i) ∧
    (¬ InRange s.params sp.space a n →
      exec (writeInstr sp.space a n) s = .next { s with responses := s.responses ++ [⟨.noSuchRegister, []⟩] }) ∧
    (InRange s.params sp.space a n → s.din.length < 2 * n.toNat →
      exec (writeInstr sp.space a n) s = .next { s with responses := s.responses ++ [⟨.dataShort, []⟩] })

/-- R173: a write whose range passes but whose data is short (R81) is answered DATA_SHORT (code 0x03) and changes
nothing; so is a response shorter than its length. -/
def Obligations.ShortDataRejected : Prop :=
  Status.dataShort.code = 0x03#8 ∧
  ∀ (s : State) (a n : Word),
    (∀ sp : BitSpace, InRange s.params sp.space a n → s.din.length < (n.toNat + 7) / 8 →
      exec (writeInstr sp.space a n) s = .next { s with responses := s.responses ++ [⟨.dataShort, []⟩] }) ∧
    (∀ sp : WordSpace, InRange s.params sp.space a n → s.din.length < 2 * n.toNat →
      exec (writeInstr sp.space a n) s = .next { s with responses := s.responses ++ [⟨.dataShort, []⟩] }) ∧
    (s.svc = true → n.toNat ≤ s.params.txBufSize → s.din.length < n.toNat →
      exec (.tcpSetResp n) s = .next { s with responses := s.responses ++ [⟨.dataShort, []⟩] })

/-- R118: a write that passes, followed by a read of the same range, returns the data written: for a word space its
`2N` bytes, for a bit space its `ceil(N/8)` bytes with the final one ANDed with `2^r - 1`. -/
def Obligations.WriteThenReadRoundTrip : Prop :=
  (∀ (s : State) (sp : WordSpace) (a n : Word) (c : Command), (s.words sp).wf = true →
    InRange s.params sp.space a n → 2 * n.toNat ≤ s.din.length →
    ∃ t u, exec (writeInstr sp.space a n) s = .next t ∧ exec (readInstr sp.space a n) (t.accept c) = .next u ∧
      u.responses = s.responses ++ [⟨.ok, []⟩, ⟨.ok, s.din.take (2 * n.toNat)⟩]) ∧
  (∀ (s : State) (sp : BitSpace) (a n : Word) (c : Command), (s.bits sp).wf = true →
    InRange s.params sp.space a n → (n.toNat + 7) / 8 ≤ s.din.length →
    ∃ t u bytes, exec (writeInstr sp.space a n) s = .next t ∧ exec (readInstr sp.space a n) (t.accept c) = .next u ∧
      u.responses = s.responses ++ [⟨.ok, []⟩, ⟨.ok, bytes⟩] ∧
      bytes.length = (n.toNat + 7) / 8 ∧
      (∀ j, j + 1 < (n.toNat + 7) / 8 → bytes.getD j 0#8 = s.din.getD j 0#8) ∧
      (∀ j, j + 1 = (n.toNat + 7) / 8 →
        bytes.getD j 0#8 = s.din.getD j 0#8 &&& BitVec.ofNat 8 (2 ^ (n.toNat - 8 * j) - 1)))

/-- R119: a count of zero passes exactly from START to START+QTY; it reads nothing and returns nothing, writes
nothing and needs no data. -/
def Obligations.CountZeroIsLegal : Prop :=
  ∀ (s : State) (sp : Space) (a : Word),
    ((∃ idx, addressDecode s.params sp a 0#16 = some idx) ↔
      s.params.start sp ≤ a.toNat ∧ a.toNat ≤ s.params.start sp + s.params.qty sp) ∧
    (s.params.start sp ≤ a.toNat ∧ a.toNat ≤ s.params.start sp + s.params.qty sp →
      exec (readInstr sp a 0#16) s = .next { s with responses := s.responses ++ [⟨.ok, []⟩] } ∧
      exec (writeInstr sp a 0#16) s = .next { s with responses := s.responses ++ [⟨.ok, []⟩] })

/-- Rests on R100: a read's answer depends on no array but its own space's: two states with the same parameters and
the same array of that space are answered alike, whatever else differs. -/
def Obligations.ReadsSeeOnlyTheirSpace : Prop :=
  (∀ (s s' : State) (sp : BitSpace) (a n : Word), s.params = s'.params → s.bits sp = s'.bits sp →
    ∃ r, exec (readInstr sp.space a n) s = .next { s with responses := s.responses ++ [r] } ∧
      exec (readInstr sp.space a n) s' = .next { s' with responses := s'.responses ++ [r] }) ∧
  (∀ (s s' : State) (sp : WordSpace) (a n : Word), s.params = s'.params → s.words sp = s'.words sp →
    ∃ r, exec (readInstr sp.space a n) s = .next { s with responses := s.responses ++ [r] } ∧
      exec (readInstr sp.space a n) s' = .next { s' with responses := s'.responses ++ [r] })

/-- Rests on R59: a read of the register map and STAT.RD change nothing but the responses and answer alike when
repeated; a write repeated with the same data leaves every array as the first one left it, as data. -/
def Obligations.RepeatedAccessIsIdempotent : Prop :=
  (∀ (s : State) (i : Instr), (i = .statRd ∨ ∃ sp a n, i = readInstr sp a n) →
    ∃ t r, exec i s = .next t ∧ t = { s with responses := s.responses ++ [r] } ∧
      exec i t = .next { s with responses := s.responses ++ [r, r] }) ∧
  (∀ (s : State) (sp : Space) (a n : Word), s.Sound →
    ∃ t r, exec (writeInstr sp a n) s = .next t ∧
      exec (writeInstr sp a n) t = .next { t with responses := t.responses ++ [r] })

/-- R51: a word moves high byte first, and its two bytes give it back: 0x1234 is 0x12, 0x34. Word `k` of a transfer,
read or written, is the stream's bytes `2k` and `2k+1`. -/
def Obligations.WordsMoveHighByteFirst : Prop :=
  wordBytes 0x1234#16 = [0x12#8, 0x34#8] ∧
  (∀ w : Word, wordBytes w = [w.extractLsb' 8 8, w.extractLsb' 0 8]) ∧
  (∀ w : Word, ∀ hi lo : Byte, wordBytes w = [hi, lo] ↔ wordOf hi lo = w) ∧
  (∀ (m : Memory 16) (idx n k : Nat), k < n →
    (wordRead m idx n).getD (2 * k) 0#8 = (m.read (idx + k)).extractLsb' 8 8 ∧
    (wordRead m idx n).getD (2 * k + 1) 0#8 = (m.read (idx + k)).extractLsb' 0 8) ∧
  (∀ (m : Memory 16) (idx n k : Nat) (d : List Byte), m.wf = true → k < n →
    ((wordWrite m idx d n).read (idx + k)).extractLsb' 8 8 = d.getD (2 * k) 0#8 ∧
    ((wordWrite m idx d n).read (idx + k)).extractLsb' 0 8 = d.getD (2 * k + 1) 0#8)

/-! ### The request and response commands, and the status -/

/-- R154: inside an envelope TCP.GETREQ is answered OK with RX_BUF[0 .. RX_LEN-1], clears RX_RECV and changes nothing
else, so that a second one returns the same bytes; outside it is ILLEGAL_COMMAND with no effect. -/
def Obligations.GetReqReturnsRequest : Prop :=
  encode .tcpGetReq = 0x0000000000000011#64 ∧
  ∀ s : State,
    (s.svc = true →
      ∃ bytes : List Byte, bytes.length = s.rxLen.toNat ∧ (∀ j < bytes.length, bytes.getD j 0#8 = s.rxBuf.read j) ∧
        exec .tcpGetReq s = .next { s with rxRecv := false, responses := s.responses ++ [⟨.ok, bytes⟩] } ∧
        exec .tcpGetReq { s with rxRecv := false, responses := s.responses ++ [⟨.ok, bytes⟩] } =
          .next { s with rxRecv := false, responses := s.responses ++ [⟨.ok, bytes⟩, ⟨.ok, bytes⟩] }) ∧
    (s.svc = false → exec .tcpGetReq s = .next { s with responses := s.responses ++ [⟨.illegalCommand, []⟩] })

/-- R155: inside an envelope TCP.SETRESP with a length that fits and enough data loads TX_BUF[0 .. LEN-1], TX_LEN and
TX_EN and changes nothing else; its errors come in the order of R80, each with no effect. -/
def Obligations.SetRespLoadsResponse : Prop :=
  (∀ len : Word, encode (.tcpSetResp len) = 0#16 ++ 0#16 ++ len ++ 0x0012#16) ∧
  ∀ (s : State) (len : Word), s.txBuf.wf = true →
    (s.svc = true → len.toNat ≤ s.params.txBufSize → len.toNat ≤ s.din.length →
      ∃ m : Memory 8, m.wf = true ∧
        (∀ j, m.read j = if j < len.toNat then s.din.getD j 0#8 else s.txBuf.read j) ∧
        exec (.tcpSetResp len) s =
          .next { s with txBuf := m, txLen := len, txEn := true, responses := s.responses ++ [⟨.ok, []⟩] }) ∧
    (s.svc = false →
      exec (.tcpSetResp len) s = .next { s with responses := s.responses ++ [⟨.illegalCommand, []⟩] }) ∧
    (s.svc = true → s.params.txBufSize < len.toNat →
      exec (.tcpSetResp len) s = .next { s with responses := s.responses ++ [⟨.respOverflow, []⟩] }) ∧
    (s.svc = true → len.toNat ≤ s.params.txBufSize → s.din.length < len.toNat →
      exec (.tcpSetResp len) s = .next { s with responses := s.responses ++ [⟨.dataShort, []⟩] })

/-- R41, R42, R156: STAT.RD is answered OK with the eight bytes of the snapshot and changes nothing else; STATUS has
each flag at its bit and reads 0 at bits 15:10. -/
def Obligations.StatRdReturnsSnapshot : Prop :=
  encode .statRd = 0x0000000000000020#64 ∧
  ∀ s : State, ∃ status : Word,
    exec .statRd s = .next { s with responses := s.responses ++
      [⟨.ok, [status.extractLsb' 8 8, status.extractLsb' 0 8, s.sockState, 0x00#8,
        s.rxLen.extractLsb' 8 8, s.rxLen.extractLsb' 0 8, s.txLen.extractLsb' 8 8, s.txLen.extractLsb' 0 8]⟩] } ∧
    status.getLsbD 0 = s.linkUp ∧ status.getLsbD 1 = s.connected ∧ status.getLsbD 2 = s.txEn ∧
    status.getLsbD 3 = s.txSent ∧ status.getLsbD 4 = s.rxEn ∧ status.getLsbD 5 = s.rxRecv ∧
    status.getLsbD 6 = s.initFailed ∧ status.getLsbD 7 = s.sockValid ∧
    status.getLsbD 8 = decide (s.mode = .tcp) ∧ status.getLsbD 9 = s.svc ∧
    ∀ k, 10 ≤ k → status.getLsbD k = false

/-- R43 for every command but TCP.POLL: what it does not write it leaves: only REG.WR writes a register array, and
only its own; only TCP.SETRESP writes TX_EN, TX_BUF and TX_LEN; only TCP.GETREQ writes RX_RECV; the rest is left by
all. -/
def Obligations.CommandFrames : Prop :=
  ∀ (i : Instr) (s : State), i ≠ .tcpPoll →
    ∃ t, exec i s = .next t ∧
      t.params = s.params ∧ t.mode = s.mode ∧ t.netcfg = s.netcfg ∧ t.linkUp = s.linkUp ∧
      t.sockState = s.sockState ∧ t.connected = s.connected ∧ t.txSent = s.txSent ∧ t.rxEn = s.rxEn ∧
      t.rxBuf = s.rxBuf ∧ t.rxLen = s.rxLen ∧ t.sockValid = s.sockValid ∧ t.initFailed = s.initFailed ∧
      t.svc = s.svc ∧ t.savedEvent = s.savedEvent ∧ t.slot = s.slot ∧ t.chipTrace = s.chipTrace ∧
      t.pending = s.pending ∧ t.din = s.din ∧ t.chip = s.chip ∧ t.draws = s.draws ∧ t.engine = s.engine ∧
      t.outsidePuts = s.outsidePuts ∧ t.engineReads = s.engineReads ∧
      ((∀ len, i ≠ .tcpSetResp len) → t.txEn = s.txEn ∧ t.txBuf = s.txBuf ∧ t.txLen = s.txLen) ∧
      (i ≠ .tcpGetReq → t.rxRecv = s.rxRecv) ∧
      ((∀ a n, i ≠ .regWrDI a n) → t.bytesDI = s.bytesDI) ∧
      ((∀ a n, i ≠ .regWrCO a n) → t.bytesCO = s.bytesCO) ∧
      ((∀ a n, i ≠ .regWrIR a n) → t.wordsIR = s.wordsIR) ∧
      ((∀ a n, i ≠ .regWrHR a n) → t.wordsHR = s.wordsHR)

/-! ### The engine inside an envelope -/

/-- R152 and the commands of R150: while SVC = 1 a command of the engine is performed by its own rule, as `exec`
does it, TCP.POLL being ILLEGAL_COMMAND with no effect; while SVC = 0 TCP.GETREQ and TCP.SETRESP are. A reserved
word is ILLEGAL_COMMAND with no effect (R77). A transaction performs all its actions, in their order (R62, R150). -/
def Obligations.EngineCommandsFollowTheirRules : Prop :=
  (∀ (c : Command) (i : Instr) (s : State), s.svc = true → decode c.word = .ok i →
    exec i { s.outside with din := c.din } = .next (engineAction (.command c) s)) ∧
  (∀ (c : Command) (s : State), (∀ i, decode c.word ≠ .ok i) →
    engineAction (.command c) s =
      { s.outside with din := c.din, responses := s.responses ++ [⟨.illegalCommand, []⟩] }) ∧
  (∀ s : State, engineRun [] s = s) ∧
  (∀ (op : EngineOp) (ops : List EngineOp) (s : State),
    engineRun (op :: ops) s = engineRun ops (engineAction op s)) ∧
  (∀ s : State, s.svc = true →
    exec .tcpPoll s = .next { s with responses := s.responses ++ [⟨.illegalCommand, []⟩] }) ∧
  (∀ s : State, s.svc = false →
    exec .tcpGetReq s = .next { s with responses := s.responses ++ [⟨.illegalCommand, []⟩] }) ∧
  (∀ (s : State) (len : Word), s.svc = false →
    exec (.tcpSetResp len) s = .next { s with responses := s.responses ++ [⟨.illegalCommand, []⟩] })

/-- Rests on R44: the engine's EvRead answers the slot's content and leaves it; its EvPut replaces the content.
Another agent's writes come first. That other agents may write just before an action is the model's (log 8), so is
the record of answers (log 9). -/
def Obligations.EngineSlotAccesses : Prop :=
  ∀ (s : State) (v : Option Event),
    engineAction .evRead s = { s.outside with engineReads := s.engineReads ++ [s.outside.slot] } ∧
    (engineAction .evRead s).slot = s.outside.slot ∧
    engineAction (.evPut v) s = { s.outside with slot := v }

/-- Any transaction of the engine keeps the envelope sound and open in TCP mode (R157: between phase A and phase B
MODE = TCP), and writes none of the lifecycle's own state, the received request or the chip's record. -/
def Obligations.EngineKeepsEnvelope : Prop :=
  ∀ (ops : List EngineOp) (s : State), s.InEnvelope →
    (engineRun ops s).InEnvelope ∧
    (engineRun ops s).savedEvent = s.savedEvent ∧ (engineRun ops s).chipTrace = s.chipTrace ∧
    (engineRun ops s).rxBuf = s.rxBuf ∧ (engineRun ops s).rxLen = s.rxLen ∧
    (engineRun ops s).linkUp = s.linkUp ∧ (engineRun ops s).connected = s.connected ∧
    (engineRun ops s).sockState = s.sockState ∧ (engineRun ops s).txSent = s.txSent ∧
    (engineRun ops s).pending = s.pending ∧ (engineRun ops s).engine = s.engine

/-- R100, R150: a transaction without a write command for a space leaves that space's array, whatever else it does. -/
def Obligations.EngineWritesOnlyByCommand : Prop :=
  ∀ (ops : List EngineOp) (s : State),
    (∀ sp : BitSpace, (∀ c a n, .command c ∈ ops → decode c.word ≠ .ok (writeInstr sp.space a n)) →
      (engineRun ops s).bits sp = s.bits sp) ∧
    (∀ sp : WordSpace, (∀ c a n, .command c ∈ ops → decode c.word ≠ .ok (writeInstr sp.space a n)) →
      (engineRun ops s).words sp = s.words sp)

/-! ### The poll -/

/-- Rests on R134 and R175: a poll whose re-initialisation reads back a mismatch resets the descriptor, records the
failure, ends there and is answered OK; while SOCK_VALID = 0 the next poll programs the chip again without querying
the port. Which CLOSED code the descriptor reset stores, where the table has several, is the model's choice
(log 12). -/
def Obligations.PollReadbackMismatch : Prop :=
  (∀ (s : State) (a : ChipAnswers), a = s.chipAnswers → s.svc = false → ¬ SocketReady a s →
    (∃ f ∈ s.params.verifyFields, fieldAgrees a.readback s.netcfg f = false) →
    exec .tcpPoll s = .next { s with
      chip := s.chip.tail, draws := s.draws + 1,
      linkUp := false, sockState := closedCode s.params, connected := false, txEn := false, txSent := false,
      rxRecv := false, rxLen := 0#16, txLen := 0#16, initFailed := true, sockValid := false,
      chipTrace := s.chipTrace ++ (if s.sockValid then [.portActive] else []) ++
        [.programConfig s.netcfg, .readConfig],
      responses := s.responses ++ [⟨.ok, []⟩] }) ∧
  (∀ s : State, s.svc = false → s.sockValid = false →
    ∃ t more, exec .tcpPoll s = .next t ∧
      t.chipTrace = s.chipTrace ++ [.programConfig s.netcfg, .readConfig] ++ more)

/-- R137, R176: a poll that finds the chip ready and the link dropped (R136) closes and releases the socket, ends
there and is answered OK; the next poll re-initialises the chip. -/
def Obligations.PollLinkDropReleasesSocket : Prop :=
  ∀ (s : State) (a : ChipAnswers), a = s.chipAnswers → s.svc = false → SocketReady a s →
    a.linkUp = false → (s.linkUp = true ∨ s.connected = true) →
    ∃ t, t = { s with
        chip := s.chip.tail, draws := s.draws + 1,
        connected := false, sockValid := false, linkUp := false,
        chipTrace := s.chipTrace ++ [.portActive, .linkStatus, .closeSocket],
        responses := s.responses ++ [⟨.ok, []⟩] } ∧
      exec .tcpPoll s = .next t ∧
      ∃ u more, exec .tcpPoll t = .next u ∧
        u.chipTrace = t.chipTrace ++ [.programConfig s.netcfg, .readConfig] ++ more

/-- R140, R141, R142, R144, R145 (with R131 to R139 before them): a poll that reads one of the statuses CLOSED, INIT,
LISTEN, CLOSE_WAIT, OTHER records the code, does that status's one action, and is answered OK; nothing else changes.
`atStatus` is the state when the code has been read, with or without a re-initialisation. -/
def Obligations.PollStatusActions : Prop :=
  ∀ (s B : State) (a : ChipAnswers), a = s.chipAnswers → s.svc = false → ReachesStatus a s →
    B = State.atStatus a { s with chip := s.chip.tail, draws := s.draws + 1 } →
    (statusOf s.params a.status = .closed →
      exec .tcpPoll s = .next { B with
        connected := false
        chipTrace := B.chipTrace ++ [.openSocket s.netcfg.port [.noDelay, .nonBlocking]]
        responses := s.responses ++ [⟨.ok, []⟩] }) ∧
    (statusOf s.params a.status = .init →
      exec .tcpPoll s = .next { B with
        chipTrace := B.chipTrace ++ [.listen], responses := s.responses ++ [⟨.ok, []⟩] }) ∧
    (statusOf s.params a.status = .listen →
      exec .tcpPoll s = .next { B with responses := s.responses ++ [⟨.ok, []⟩] }) ∧
    (statusOf s.params a.status = .closeWait →
      exec .tcpPoll s = .next { B with
        chipTrace := B.chipTrace ++ [.disconnect], responses := s.responses ++ [⟨.ok, []⟩] }) ∧
    (statusOf s.params a.status = .other →
      exec .tcpPoll s = .next { B with responses := s.responses ++ [⟨.ok, []⟩] })

/-- R143 where no bytes wait: a poll that reads ESTABLISHED with no bytes waiting sets CONNECTED, asks for the
receive count and refreshes the keepalive; nothing else changes. -/
def Obligations.PollEstablishedIdle : Prop :=
  ∀ (s B : State) (a : ChipAnswers), a = s.chipAnswers → s.svc = false → ReachesStatus a s →
    B = State.atStatus a { s with chip := s.chip.tail, draws := s.draws + 1 } →
    statusOf s.params a.status = .established → a.rxReady = 0#16 →
    exec .tcpPoll s = .next { B with
      connected := true
      chipTrace := B.chipTrace ++ [.rxReady, .setKeepalive s.params.keepalive]
      responses := s.responses ++ [⟨.ok, []⟩] }

/-- R149, R151: a poll that reads ESTABLISHED with bytes waiting serves one request. `A` is the state at the end
of phase A, `E` the state after exactly one engine transaction; the poll ends with phase B's effects on `E` and the
keepalive. -/
def Obligations.PollServesOneRequest : Prop :=
  ∀ (s B A E : State) (a : ChipAnswers) (m : Nat), a = s.chipAnswers → s.svc = false → OpensEnvelope a s →
    B = State.atStatus a { s with chip := s.chip.tail, draws := s.draws + 1 } →
    m = min a.rxReady.toNat s.params.rxBufSize →
    A = { B with
      connected := true, svc := true, txSent := false
      savedEvent := slotAfter s.slot (s.outsidePuts.headD [])
      rxBuf := Memory.writeBytes s.rxBuf (recvBytes a (s.draws + 1) m), rxLen := BitVec.ofNat 16 m, rxRecv := true
      mode := .tcp, slot := some .frameReceived
      outsidePuts := s.outsidePuts.tail.tail
      chipTrace := B.chipTrace ++ [.rxReady, .recv m] } →
    E = engineRun A.engineOps { A with engine := s.engine.tail, draws := s.draws + 2 } →
    exec .tcpPoll s = .next { E with
      mode := .rtu, svc := false, slot := A.savedEvent
      txEn := false, txSent := E.txEn
      outsidePuts := E.outsidePuts.tail
      chipTrace := A.chipTrace ++ (if E.txEn then [.send (E.txBuf.readBytes E.txLen.toNat)] else []) ++
        [.setKeepalive s.params.keepalive]
      responses := E.responses ++ [⟨.ok, []⟩] }

/-- R149 in terms of bytes: RX_BUF[0 .. m-1] are the `m` bytes received, the scripted ones where there are, and the
rest of RX_BUF is unchanged; the engine and phase B leave them (R43). A byte that no answer gives is free (log 6).
-/
def Obligations.ReceivedBytesReachTheBuffer : Prop :=
  ∀ (s : State) (a : ChipAnswers) (m : Nat), a = s.chipAnswers → s.Inv → OpensEnvelope a s →
    m = min a.rxReady.toNat s.params.rxBufSize →
    ∃ t, exec .tcpPoll s = .next t ∧ t.rxLen.toNat = m ∧
      (∀ j, j < m → j < a.recv.length → t.rxBuf.read j = a.recv.getD j 0#8) ∧
      (∀ j, m ≤ j → t.rxBuf.read j = s.rxBuf.read j)

/-- R157: between commands, after every TCP.POLL MODE = RTU and SVC = 0; the slot holds what phase A's EvRead
returned, which is the content at the start of the envelope (with the outside writes that fell before the EvRead),
whatever the engine and other agents posted since (R195, R197); a poll without an envelope leaves the slot. The
third clause is MODE = TCP between the phases: from the end of phase A on, whatever the engine has done so far, and
phase B follows. -/
def Obligations.PollRestoresModeAndSlot : Prop :=
  (∀ (s : State) (a : ChipAnswers), a = s.chipAnswers → s.Inv →
    ∃ t, exec .tcpPoll s = .next t ∧ t.mode = .rtu ∧ t.svc = false ∧
      (OpensEnvelope a s → t.savedEvent = slotAfter s.slot (s.outsidePuts.headD []) ∧ t.slot = t.savedEvent) ∧
      (¬ OpensEnvelope a s → t.slot = s.slot ∧ t.savedEvent = s.savedEvent)) ∧
  (∀ (ops : List EngineOp) (s : State), s.mode = .tcp → s.svc = true →
    (engineRun ops s).mode = .tcp ∧ (engineRun ops s).svc = true) ∧
  (∀ (s B A : State) (a : ChipAnswers), a = s.chipAnswers → s.svc = false → OpensEnvelope a s →
    B = State.atStatus a { s with chip := s.chip.tail, draws := s.draws + 1 } →
    A = phaseA a { B with connected := true, chipTrace := B.chipTrace ++ [.rxReady] } →
    A.mode = .tcp ∧ A.svc = true ∧
    (∀ ops : List EngineOp, (engineRun ops A.drawEngine).mode = .tcp ∧ (engineRun ops A.drawEngine).svc = true) ∧
    exec .tcpPoll s = .next (((phaseB (engineRun A.engineOps A.drawEngine)).issue
      (.setKeepalive s.params.keepalive)).respond .ok []))

/-- R195, R197: what is posted inside an envelope is lost, and the slot holds the snapshot: two polls that differ
only in the engine's transactions and in the outside writes after phase A's EvRead leave the same slot, mode and
received request. -/
def Obligations.PostsInsideEnvelopeAreLost : Prop :=
  ∀ (s : State) (eng : List (List EngineOp)) (puts : List (List (Option Event))),
    s.Inv → OpensEnvelope s.chipAnswers s →
    ∃ t t', exec .tcpPoll s = .next t ∧
      exec .tcpPoll { s with engine := eng, outsidePuts := s.outsidePuts.headD [] :: puts } = .next t' ∧
      t.slot = slotAfter s.slot (s.outsidePuts.headD []) ∧
      t.slot = t'.slot ∧ t.mode = t'.mode ∧ t.rxBuf = t'.rxBuf ∧ t.rxLen = t'.rxLen

/-- Rests on R32: after a complete envelope TX_SENT is 1 exactly when that envelope sent a response; it sends at
most one, and TX_EN is clear. -/
def Obligations.TxSentExactlyWhenSent : Prop :=
  ∀ s : State, s.svc = false → OpensEnvelope s.chipAnswers s →
    ∃ t new, exec .tcpPoll s = .next t ∧ t.chipTrace = s.chipTrace ++ new ∧ t.txEn = false ∧
      (t.txSent = true ↔ ∃ bytes, ChipOp.send bytes ∈ new) ∧
      (new.filter fun op => match op with | .send _ => true | _ => false).length ≤ 1

/-- R146: the keepalive is the last primitive of every poll whose status is ESTABLISHED, after any envelope; no other
poll issues it. -/
def Obligations.KeepaliveLastOnEstablishedOnly : Prop :=
  ∀ (s : State) (a : ChipAnswers), a = s.chipAnswers → s.svc = false →
    ∃ t new, exec .tcpPoll s = .next t ∧ t.chipTrace = s.chipTrace ++ new ∧
      (ReachesStatus a s ∧ statusOf s.params a.status = .established →
        ∃ front, new = front ++ [.setKeepalive s.params.keepalive] ∧ ∀ k, ChipOp.setKeepalive k ∉ front) ∧
      (¬ (ReachesStatus a s ∧ statusOf s.params a.status = .established) → ∀ k, ChipOp.setKeepalive k ∉ new)

/-- Rests on R159: a poll outside an envelope is always answered OK, last of the responses, with every earlier one
kept (log 9); a failed initialisation and a lost link are recorded in the flags. -/
def Obligations.PollNeverReportsAnError : Prop :=
  ∀ (s : State) (a : ChipAnswers), a = s.chipAnswers → s.svc = false →
    ∃ t nested, exec .tcpPoll s = .next t ∧ t.responses = s.responses ++ nested ++ [⟨.ok, []⟩] ∧
      (¬ SocketReady a s → ¬ ReadbackAgrees s.params a.readback s.netcfg → t.initFailed = true ∧ t.sockValid = false) ∧
      (SocketReady a s → LinkDrops a s → t.connected = false ∧ t.sockValid = false)

/-- R43, R49 for TCP.POLL: a poll that opens no envelope leaves the register map, the buffers' contents, MODE, SVC,
SAVED_EVENT, NETCFG, RX_EN, the slot and the engine alone; every poll leaves NETCFG, RX_EN, the parameters and the
host's commands, and uses exactly one engine transaction when it opens an envelope (R148). -/
def Obligations.PollFrames : Prop :=
  ∀ (s : State) (a : ChipAnswers), a = s.chipAnswers → s.svc = false →
    ∃ t, exec .tcpPoll s = .next t ∧
      t.params = s.params ∧ t.netcfg = s.netcfg ∧ t.rxEn = s.rxEn ∧ t.pending = s.pending ∧
      (OpensEnvelope a s → t.engine = s.engine.tail) ∧
      (¬ OpensEnvelope a s →
        t.bytesDI = s.bytesDI ∧ t.bytesCO = s.bytesCO ∧ t.wordsIR = s.wordsIR ∧ t.wordsHR = s.wordsHR ∧
        t.rxBuf = s.rxBuf ∧ t.txBuf = s.txBuf ∧ t.mode = s.mode ∧ t.svc = s.svc ∧ t.savedEvent = s.savedEvent ∧
        t.slot = s.slot ∧ t.engine = s.engine ∧ t.outsidePuts = s.outsidePuts ∧ t.engineReads = s.engineReads ∧
        t.din = s.din ∧ t.responses = s.responses ++ [⟨.ok, []⟩])

/-- R158, with the premise that no poll of the sequence re-initialises a chip whose socket is held (the descriptor
reset of R132 would clear CONNECTED: log 19): polls that reach step 3 with CLOSED, INIT, LISTEN, ESTABLISHED,
CLOSE_WAIT, CLOSED, from CONNECTED = 0, leave CONNECTED 0, 0, 0, 1, 1, 0. -/
def Obligations.ConnectedFollowsStatusSequence : Prop :=
  ∀ s0 s1 s2 s3 s4 s5 s6 : State, s0.svc = false → s0.connected = false →
    (∀ p ∈ [(s0, s1, SockStatus.closed), (s1, s2, .init), (s2, s3, .listen), (s3, s4, .established),
        (s4, s5, .closeWait), (s5, s6, .closed)],
      ReachesStatus p.1.chipAnswers p.1 ∧ (p.1.sockValid = true → p.1.chipAnswers.portActive = true) ∧
      statusOf p.1.params p.1.chipAnswers.status = p.2.2 ∧ exec .tcpPoll p.1 = .next p.2.1) →
    s1.connected = false ∧ s2.connected = false ∧ s3.connected = false ∧ s4.connected = true ∧
    s5.connected = true ∧ s6.connected = false

/-! ### Reset and the invariant -/

/-- R47, R190: reset gives every piece of state its value; the register map, the buffers, SAVED_EVENT and the slot are
whatever the launch holds; no primitive has been issued. SOCK_STATE is the CLOSED code, which decodes to CLOSED. -/
def Obligations.ResetValues : Prop :=
  ∀ (p : Params) (l : Launch),
    let s := State.resetWith p l
    s.bytesDI = l.imageDI ∧ s.bytesCO = l.imageCO ∧ s.wordsIR = l.imageIR ∧ s.wordsHR = l.imageHR ∧
    s.mode = .rtu ∧ s.netcfg = p.netcfgDefault ∧ s.linkUp = false ∧ s.connected = false ∧
    (p.wf = true → statusOf p s.sockState = .closed) ∧
    s.txEn = false ∧ s.txSent = false ∧ s.rxEn = false ∧ s.rxRecv = false ∧ s.rxLen = 0#16 ∧ s.txLen = 0#16 ∧
    s.rxBuf = l.rxBuf ∧ s.txBuf = l.txBuf ∧ s.sockValid = false ∧ s.initFailed = false ∧ s.svc = false ∧
    s.savedEvent = l.savedEvent ∧ s.slot = l.slot ∧ s.chipTrace = []

/-- The invariant holds after reset: for every well-formed launch, and for `State.reset`. The parameters and
contents of `State.reset` are the model's choice (log 3, log 4). -/
def Obligations.InvariantHoldsAtReset : Prop :=
  (∀ (p : Params) (l : Launch), p.wf = true → l.wf p = true → (State.resetWith p l).Inv) ∧ State.reset.Inv

/-- The invariant is kept by every step: for every command, every chip answer, every engine transaction and every
outside write, from a sound state between commands a step leads to one. The canonical form of the arrays is the
model's (log 14). -/
def Obligations.StepKeepsInvariant : Prop :=
  ∀ s t : State, s.Inv → step s = .next t → t.Inv

/-- R25, R157 and R27 over any number of steps from any state with the invariant: MODE is RTU, no envelope is open,
and NETCFG and RX_EN are as at the start. -/
def Obligations.RunsStayBetweenEnvelopes : Prop :=
  ∀ (n : Nat) (s : State), s.Inv →
    ∃ t, Host.Core.run Sys2Proof.core n s = .next t ∧ t.Inv ∧ t.netcfg = s.netcfg ∧ t.params = s.params
end

