-- ==== Sys2Proof/Laws/Memory.lean ====
section
/-! SUPPORT. Storage arrays: read after write, and that every write keeps the canonical form and the size. -/

namespace Sys2Proof.Machine.Memory

variable {w : Nat}

@[simp] theorem read_nil (k : Nat) : read ([] : Memory w) k = blank w := rfl

theorem read_cons (a : Nat) (v : BitVec w) (m : Memory w) (k : Nat) :
    read ((a, v) :: m) k = if a = k then v else read m k := rfl

theorem wfFrom_cons {lo a : Nat} {v : BitVec w} {m : Memory w} :
    wfFrom lo ((a, v) :: m) = true ↔ lo ≤ a ∧ v ≠ blank w ∧ wfFrom (a + 1) m = true := by
  simp [wfFrom, and_assoc]

theorem wfFrom_mono {lo lo' : Nat} {m : Memory w} (h : lo' ≤ lo) (hm : wfFrom lo m = true) :
    wfFrom lo' m = true := by
  cases m with
  | nil => rfl
  | cons c rest =>
    obtain ⟨h1, h2, h3⟩ := wfFrom_cons.1 hm
    exact wfFrom_cons.2 ⟨by omega, h2, h3⟩

/-- Below the bound of a canonical list nothing is listed. -/
theorem read_below {lo k : Nat} {m : Memory w} (hm : wfFrom lo m = true) (hk : k < lo) : read m k = blank w := by
  induction m generalizing lo with
  | nil => rfl
  | cons c rest ih =>
    obtain ⟨h1, -, h3⟩ := wfFrom_cons.1 hm
    rw [read_cons, if_neg (by omega)]
    exact ih h3 (by omega)

theorem read_write_from {lo k : Nat} {v : BitVec w} {m : Memory w} (hm : wfFrom lo m = true) (j : Nat) :
    read (write m k v) j = if j = k then v else read m j := by
  induction m generalizing lo with
  | nil =>
    unfold write
    by_cases hv : v = blank w
    · rw [if_pos hv, hv]; simp
    · rw [if_neg hv, read_cons]
      by_cases hj : j = k
      · simp [hj]
      · simp [hj, Ne.symm hj]
  | cons c rest ih =>
    obtain ⟨a, x⟩ := c
    obtain ⟨-, -, h3⟩ := wfFrom_cons.1 hm
    unfold write
    by_cases hka : k < a
    · have hb : read ((a, x) :: rest) k = blank w := read_below (lo := a)
        (wfFrom_cons.2 ⟨le_refl _, (wfFrom_cons.1 hm).2⟩) hka
      rw [if_pos hka]
      by_cases hv : v = blank w
      · rw [if_pos hv]
        by_cases hj : j = k
        · rw [if_pos hj, hj, hb, hv]
        · rw [if_neg hj]
      · rw [if_neg hv, read_cons]
        by_cases hj : j = k
        · simp [hj]
        · rw [if_neg (Ne.symm hj), if_neg hj]
    · rw [if_neg hka]
      by_cases hk : k = a
      · subst hk
        have hb : read rest k = blank w := read_below h3 (Nat.lt_succ_self k)
        rw [if_pos rfl]
        by_cases hv : v = blank w
        · rw [if_pos hv]
          by_cases hj : j = k
          · rw [if_pos hj, hj, hb, hv]
          · rw [if_neg hj, read_cons, if_neg (Ne.symm hj)]
        · rw [if_neg hv, read_cons, read_cons]
          by_cases hj : j = k
          · simp [hj]
          · simp [Ne.symm hj, hj]
      · rw [if_neg hk, read_cons, read_cons, ih h3]
        by_cases hj : j = k
        · subst hj; simp [Ne.symm hk]
        · simp [hj]

/-- Read after write. -/
theorem read_write {m : Memory w} (hm : m.wf = true) (k : Nat) (v : BitVec w) (j : Nat) :
    read (write m k v) j = if j = k then v else read m j := read_write_from hm j

theorem wfFrom_write {lo k : Nat} {v : BitVec w} {m : Memory w} (hm : wfFrom lo m = true) (hk : lo ≤ k) :
    wfFrom lo (write m k v) = true := by
  induction m generalizing lo with
  | nil => by_cases hv : v = blank w <;> simp_all [write, wfFrom]
  | cons c rest ih =>
    obtain ⟨a, x⟩ := c
    obtain ⟨h1, h2, h3⟩ := wfFrom_cons.1 hm
    unfold write
    split
    · split
      · exact hm
      · exact wfFrom_cons.2 ⟨hk, ‹_›, wfFrom_cons.2 ⟨by omega, h2, h3⟩⟩
    · split
      · split
        · exact wfFrom_mono (by omega) h3
        · subst k; exact wfFrom_cons.2 ⟨h1, ‹_›, h3⟩
      · exact wfFrom_cons.2 ⟨h1, h2, ih h3 (by omega)⟩

/-- A write keeps the canonical form. -/
theorem wf_write {m : Memory w} (hm : m.wf = true) (k : Nat) (v : BitVec w) : (m.write k v).wf = true :=
  wfFrom_write hm (Nat.zero_le k)

theorem within_cons {size a : Nat} {v : BitVec w} {m : Memory w} :
    within ((a, v) :: m) size = true ↔ a < size ∧ within m size = true := by
  simp [within]

/-- A write below the size keeps every entry below the size. -/
theorem within_write {m : Memory w} {size k : Nat} (hm : m.within size = true) (hk : k < size) (v : BitVec w) :
    (m.write k v).within size = true := by
  induction m with
  | nil => by_cases hv : v = blank w <;> simp_all [write, within]
  | cons c rest ih =>
    obtain ⟨a, x⟩ := c
    obtain ⟨ha, hr⟩ := within_cons.1 hm
    unfold write
    split
    · split
      · exact hm
      · exact within_cons.2 ⟨hk, hm⟩
    · split
      · split
        · exact hr
        · exact within_cons.2 ⟨hk, hr⟩
      · exact within_cons.2 ⟨ha, ih hr⟩

/-- Canonical arrays that read alike are equal data. -/
theorem eq_of_read_from {lo : Nat} {m m' : Memory w} (hm : wfFrom lo m = true) (hm' : wfFrom lo m' = true)
    (h : ∀ k, read m k = read m' k) : m = m' := by
  induction m generalizing lo m' with
  | nil =>
    cases m' with
    | nil => rfl
    | cons c rest =>
      obtain ⟨a, x⟩ := c
      obtain ⟨-, h2, -⟩ := wfFrom_cons.1 hm'
      exact absurd (by simpa [read_cons] using (h a).symm) h2
  | cons c rest ih =>
    obtain ⟨a, x⟩ := c
    obtain ⟨h1, h2, h3⟩ := wfFrom_cons.1 hm
    cases m' with
    | nil => exact absurd (by simpa [read_cons] using h a) h2
    | cons c' rest' =>
      obtain ⟨a', x'⟩ := c'
      obtain ⟨h1', h2', h3'⟩ := wfFrom_cons.1 hm'
      have haa : a = a' := by
        rcases Nat.lt_trichotomy a a' with hlt | heq | hgt
        · have := h a
          rw [read_cons, if_pos rfl, read_cons, if_neg (by omega), read_below h3' (by omega)] at this
          exact absurd this h2
        · exact heq
        · have := h a'
          rw [read_cons, if_neg (by omega), read_cons, if_pos rfl, read_below h3 (by omega)] at this
          exact absurd this.symm h2'
      subst haa
      have hx : x = x' := by simpa [read_cons] using h a
      subst hx
      have : rest = rest' := by
        refine ih h3 h3' fun k => ?_
        by_cases hk : a = k
        · subst hk; rw [read_below h3 (by omega), read_below h3' (by omega)]
        · simpa [read_cons, hk] using h k
      rw [this]

theorem eq_of_read {m m' : Memory w} (hm : m.wf = true) (hm' : m'.wf = true) (h : ∀ k, read m k = read m' k) :
    m = m' := eq_of_read_from hm hm' h

/-! ### Buffers -/

theorem wf_writeBytesAt {m : Memory 8} (hm : m.wf = true) (k : Nat) (bs : List Byte) :
    (m.writeBytesAt k bs).wf = true := by
  induction bs generalizing m k with
  | nil => exact hm
  | cons b bs ih => exact ih (wf_write hm k b) (k + 1)

/-- Writing a buffer keeps the canonical form. -/
theorem wf_writeBytes {m : Memory 8} (hm : m.wf = true) (bs : List Byte) : (m.writeBytes bs).wf = true :=
  wf_writeBytesAt hm 0 bs

theorem within_writeBytesAt {m : Memory 8} {size k : Nat} {bs : List Byte} (hm : m.within size = true)
    (h : k + bs.length ≤ size) : (m.writeBytesAt k bs).within size = true := by
  induction bs generalizing m k with
  | nil => exact hm
  | cons b bs ih =>
    simp only [List.length_cons] at h
    exact ih (within_write hm (by omega) b) (by omega)

theorem within_writeBytes {m : Memory 8} {size : Nat} {bs : List Byte} (hm : m.within size = true)
    (h : bs.length ≤ size) : (m.writeBytes bs).within size = true :=
  within_writeBytesAt hm (by omega)

theorem read_writeBytesAt {m : Memory 8} (hm : m.wf = true) (k : Nat) (bs : List Byte) (j : Nat) :
    read (m.writeBytesAt k bs) j = if h : k ≤ j ∧ j - k < bs.length then bs[j - k] else read m j := by
  induction bs generalizing m k with
  | nil => simp [writeBytesAt]
  | cons b bs ih =>
    rw [writeBytesAt, ih (wf_write hm k b), read_write hm]
    by_cases hj : j = k
    · subst hj
      rw [dif_neg (by omega), if_pos rfl, dif_pos ⟨le_refl _, by simp⟩]
      simp
    · rw [if_neg hj]
      by_cases hin : k + 1 ≤ j ∧ j - (k + 1) < bs.length
      · have he : j - k = j - (k + 1) + 1 := by omega
        rw [dif_pos hin, dif_pos ⟨by omega, by simp only [List.length_cons]; omega⟩]
        simp [he]
      · rw [dif_neg hin, dif_neg (by simp only [List.length_cons]; omega)]

/-- A written buffer reads as the bytes written, then as before. -/
theorem read_writeBytes {m : Memory 8} (hm : m.wf = true) (bs : List Byte) (j : Nat) :
    read (m.writeBytes bs) j = if h : j < bs.length then bs[j] else read m j := by
  rw [writeBytes, read_writeBytesAt hm]; simp

@[simp] theorem length_readBytes (m : Memory 8) (n : Nat) : (m.readBytes n).length = n := by simp [readBytes]

/-- Reading back as many bytes as were written gives them. -/
theorem readBytes_writeBytes {m : Memory 8} (hm : m.wf = true) (bs : List Byte) :
    (m.writeBytes bs).readBytes bs.length = bs := by
  refine List.ext_getElem (by simp) fun j h1 h2 => ?_
  simp [readBytes, read_writeBytes hm, h2]

/-- Reset memory lists nothing, so it has the canonical form. -/
theorem wf_reset :
    State.reset.bytesDI.wf = true ∧ State.reset.bytesCO.wf = true ∧ State.reset.wordsIR.wf = true ∧
    State.reset.wordsHR.wf = true ∧ State.reset.rxBuf.wf = true ∧ State.reset.txBuf.wf = true :=
  ⟨rfl, rfl, rfl, rfl, rfl, rfl⟩

end Sys2Proof.Machine.Memory
end

