-- ==== Sys2Proof/Laws/Bits.lean ====
section
/-! SUPPORT. Bit and word transfers: what one element reads as, before and after (40_register_store R103 to R108). -/

namespace Sys2Proof.Machine

/-! ### Bits of a byte -/

theorem getLsbD_setBit (b : Byte) {k : Nat} (hk : k < 8) (v : Bool) (j : Nat) :
    (setBit b k v).getLsbD j = if j = k then v else b.getLsbD j := by
  by_cases hj : j < 8
  · unfold setBit
    cases v <;> by_cases h : j = k <;> simp_all <;> omega
  · rw [BitVec.getLsbD_of_ge _ _ (by omega), BitVec.getLsbD_of_ge _ _ (by omega), if_neg (by omega)]

theorem getLsbD_packBits (f : Nat → Bool) {n : Nat} (hn : n ≤ 8) (k : Nat) :
    (packBits f n).getLsbD k = (decide (k < n) && f k) := by
  induction n with
  | zero => simp [packBits]
  | succ n ih =>
    have ih := ih (by omega)
    have hk : k < n + 1 ↔ k < n ∨ k = n := by omega
    unfold packBits
    have h1 : decide (k < n + 1) = (decide (k < n) || decide (k = n)) := by simp [hk]
    have h8 : (1#8 <<< n).getLsbD k = decide (k = n) := by
      rw [BitVec.getLsbD_shiftLeft, BitVec.getLsbD_one]
      by_cases h : k = n
      · subst h; simp; omega
      · simp only [h, decide_false, Bool.and_eq_false_imp]; intros; simp_all; omega
    by_cases hf : f n
    · rw [if_pos hf, BitVec.getLsbD_or, ih, h8, h1]
      by_cases h : k = n
      · subst h; simp [hf]
      · simp [h]
    · rw [if_neg hf, ih, h1]
      by_cases h : k = n
      · subst h; simp [hf]
      · simp [h]

/-- A byte is its bits packed. -/
theorem packBits_getLsbD (b : Byte) : packBits b.getLsbD 8 = b := by
  refine BitVec.eq_of_getLsbD_eq fun k hk => ?_
  rw [getLsbD_packBits _ (le_refl 8)]
  simp [hk]

/-- The final-byte mask keeps the low `r` bits and clears the rest (R104). -/
theorem getLsbD_finalMask {r : Nat} (hr : r ≤ 8) (b : Byte) (k : Nat) :
    (finalMask r b).getLsbD k = (decide (k < r) && b.getLsbD k) := by
  unfold finalMask
  rw [BitVec.getLsbD_ushiftRight, BitVec.getLsbD_shiftLeft]
  by_cases h : k < r
  · have : 8 - r + k - (8 - r) = k := by omega
    simp [h, this]; omega
  · simp [h]; omega

/-! ### Elements of a bit space -/

theorem readBit_writeBit {m : Memory 8} (hm : m.wf = true) (i : Nat) (v : Bool) (j : Nat) :
    (m.writeBit i v).readBit j = if j = i then v else m.readBit j := by
  unfold Memory.writeBit Memory.readBit
  rw [Memory.read_write hm]
  by_cases hb : j / 8 = i / 8
  · rw [if_pos hb, getLsbD_setBit _ (Nat.mod_lt _ (by omega))]
    by_cases h : j = i
    · simp [h]
    · have hne : j % 8 ≠ i % 8 := by omega
      simp [h, hne, hb]
  · have h : j ≠ i := fun e => hb (by rw [e])
    rw [if_neg hb, if_neg h]

theorem wf_writeBit {m : Memory 8} (hm : m.wf = true) (i : Nat) (v : Bool) : (m.writeBit i v).wf = true :=
  Memory.wf_write hm _ _

theorem within_writeBit {m : Memory 8} {qty i : Nat} (hm : m.within (ceil8 qty) = true) (hi : i < qty) (v : Bool) :
    (m.writeBit i v).within (ceil8 qty) = true :=
  Memory.within_write hm (by unfold ceil8; omega) _

/-- Canonical byte arrays with the same bits are equal data. -/
theorem eq_of_readBit {m m' : Memory 8} (hm : m.wf = true) (hm' : m'.wf = true)
    (h : ∀ i, m.readBit i = m'.readBit i) : m = m' := by
  refine Memory.eq_of_read hm hm' fun k => BitVec.eq_of_getLsbD_eq fun j hj => ?_
  have := h (8 * k + j)
  rwa [Memory.readBit, Memory.readBit, show (8 * k + j) / 8 = k by omega, show (8 * k + j) % 8 = j by omega] at this

theorem wf_writeGroup {m : Memory 8} (hm : m.wf = true) (idx : Nat) (b : Byte) (n : Nat) :
    (writeGroup m idx b n).wf = true := by
  induction n with
  | zero => exact hm
  | succ n ih => exact wf_writeBit ih _ _

theorem within_writeGroup {m : Memory 8} {qty idx : Nat} (hm : m.within (ceil8 qty) = true) (b : Byte) {n : Nat}
    (h : idx + n ≤ qty) : (writeGroup m idx b n).within (ceil8 qty) = true := by
  induction n with
  | zero => exact hm
  | succ n ih => exact within_writeBit (ih (by omega)) (by omega) _

theorem readBit_writeGroup {m : Memory 8} (hm : m.wf = true) (idx : Nat) (b : Byte) (n i : Nat) :
    (writeGroup m idx b n).readBit i = if idx ≤ i ∧ i < idx + n then b.getLsbD (i - idx) else m.readBit i := by
  induction n with
  | zero => rw [if_neg (by omega)]; rfl
  | succ n ih =>
    rw [writeGroup, readBit_writeBit (wf_writeGroup hm idx b n), ih]
    by_cases h : i = idx + n
    · rw [if_pos h, if_pos (by omega), h, Nat.add_sub_cancel_left]
    · rw [if_neg h]
      by_cases h2 : idx ≤ i ∧ i < idx + n
      · rw [if_pos h2, if_pos (by omega)]
      · rw [if_neg h2, if_neg (by omega)]

theorem wf_writeFull {m : Memory 8} (hm : m.wf = true) (idx : Nat) (d : List Byte) (n : Nat) :
    (writeFull m idx d n).wf = true := by
  induction n with
  | zero => exact hm
  | succ n ih => exact wf_writeGroup ih _ _ _

theorem within_writeFull {m : Memory 8} {qty idx : Nat} (hm : m.within (ceil8 qty) = true) (d : List Byte) {n : Nat}
    (h : idx + 8 * n ≤ qty) : (writeFull m idx d n).within (ceil8 qty) = true := by
  induction n with
  | zero => exact hm
  | succ n ih => exact within_writeGroup (ih (by omega)) _ (by omega)

theorem readBit_writeFull {m : Memory 8} (hm : m.wf = true) (idx : Nat) (d : List Byte) (n i : Nat) :
    (writeFull m idx d n).readBit i =
      if idx ≤ i ∧ i < idx + 8 * n then (d.getD ((i - idx) / 8) 0#8).getLsbD ((i - idx) % 8) else m.readBit i := by
  induction n with
  | zero => rw [if_neg (by omega)]; rfl
  | succ n ih =>
    rw [writeFull, readBit_writeGroup (wf_writeFull hm idx d n), ih]
    by_cases h : idx + 8 * n ≤ i ∧ i < idx + 8 * n + 8
    · rw [if_pos h, if_pos (by omega), show (i - idx) / 8 = n by omega, show (i - idx) % 8 = i - (idx + 8 * n) by omega]
    · rw [if_neg h]
      by_cases h2 : idx ≤ i ∧ i < idx + 8 * n
      · rw [if_pos h2, if_pos (by omega)]
      · rw [if_neg h2, if_neg (by omega)]

/-- A bit write keeps the canonical form. -/
theorem wf_bitWrite {m : Memory 8} (hm : m.wf = true) (idx n : Nat) (d : List Byte) : (bitWrite m idx n d).wf = true := by
  unfold bitWrite
  split
  · exact wf_writeFull hm _ _ _
  · exact wf_writeGroup (wf_writeFull hm _ _ _) _ _ _

/-- A bit write inside the space keeps the array within its size. -/
theorem within_bitWrite {m : Memory 8} {qty idx n : Nat} (hm : m.within (ceil8 qty) = true) (h : idx + n ≤ qty)
    (d : List Byte) : (bitWrite m idx n d).within (ceil8 qty) = true := by
  unfold bitWrite
  split
  · exact within_writeFull hm _ (by omega)
  · exact within_writeGroup (within_writeFull hm _ (by omega)) _ (by omega)

/-- A bit write changes exactly the addressed elements, to the data's bits (R105, R106). -/
theorem readBit_bitWrite {m : Memory 8} (hm : m.wf = true) (idx n : Nat) (d : List Byte) (i : Nat) :
    (bitWrite m idx n d).readBit i =
      if idx ≤ i ∧ i < idx + n then (d.getD ((i - idx) / 8) 0#8).getLsbD ((i - idx) % 8) else m.readBit i := by
  unfold bitWrite
  split
  · rw [readBit_writeFull hm, show 8 * (n / 8) = n by omega]
  · rw [readBit_writeGroup (wf_writeFull hm _ _ _), readBit_writeFull hm]
    by_cases h : idx + 8 * (n / 8) ≤ i ∧ i < idx + 8 * (n / 8) + n % 8
    · rw [if_pos h, if_pos (by omega), show (i - idx) / 8 = n / 8 by omega,
        show (i - idx) % 8 = i - (idx + 8 * (n / 8)) by omega]
    · rw [if_neg h]
      by_cases h2 : idx ≤ i ∧ i < idx + 8 * (n / 8)
      · rw [if_pos h2, if_pos (by omega)]
      · rw [if_neg h2, if_neg (by omega)]

@[simp] theorem length_bitRead (m : Memory 8) (idx n : Nat) : (bitRead m idx n).length = ceil8 n := by simp [bitRead]

/-- Bit `k` of byte `j` of a bit read (R103). -/
theorem getLsbD_bitRead (m : Memory 8) (idx n : Nat) {j : Nat} (hj : j < ceil8 n) {k : Nat} (hk : k < 8) :
    ((bitRead m idx n).getD j 0#8).getLsbD k = (decide (8 * j + k < n) && m.readBit (idx + (8 * j + k))) := by
  have : (bitRead m idx n).getD j 0#8 = bitReadByte m idx n j := by simp [bitRead, List.getD, hj]
  rw [this, bitReadByte, getLsbD_packBits _ (le_refl 8)]
  simp [hk]

/-! ### Words -/

theorem wordOf_wordBytes (w : Word) : wordOf (w.extractLsb' 8 8) (w.extractLsb' 0 8) = w := by
  unfold wordOf
  refine BitVec.eq_of_getLsbD_eq fun k hk => ?_
  rw [BitVec.getLsbD_append, BitVec.getLsbD_extractLsb', BitVec.getLsbD_extractLsb']
  by_cases h : k < 8
  · simp [h]
  · have : 8 + (k - 8) = k := by omega
    simp [h, this]; omega

theorem wordBytes_wordOf (hi lo : Byte) : wordBytes (wordOf hi lo) = [hi, lo] := by
  unfold wordBytes wordOf
  have h1 : (hi ++ lo : Word).extractLsb' 8 8 = hi := by
    refine BitVec.eq_of_getLsbD_eq fun k hk => ?_
    rw [BitVec.getLsbD_extractLsb', BitVec.getLsbD_append]
    simp [hk]
  have h2 : (hi ++ lo : Word).extractLsb' 0 8 = lo := by
    refine BitVec.eq_of_getLsbD_eq fun k hk => ?_
    rw [BitVec.getLsbD_extractLsb', BitVec.getLsbD_append]
    simp [hk]
  rw [h1, h2]

@[simp] theorem length_wordRead (m : Memory 16) (idx n : Nat) : (wordRead m idx n).length = 2 * n := by
  unfold wordRead
  induction n with
  | zero => rfl
  | succ n ih => rw [List.range_succ, List.flatMap_append, List.length_append, ih]; simp [wordBytes, Nat.mul_add]

/-- The two bytes of word `k` of a word read (R107). -/
theorem getD_wordRead (m : Memory 16) (idx n : Nat) {k : Nat} (hk : k < n) :
    (wordRead m idx n).getD (2 * k) 0#8 = (m.read (idx + k)).extractLsb' 8 8 ∧
    (wordRead m idx n).getD (2 * k + 1) 0#8 = (m.read (idx + k)).extractLsb' 0 8 := by
  induction n with
  | zero => omega
  | succ n ih =>
    have hs : wordRead m idx (n + 1) = wordRead m idx n ++ wordBytes (m.read (idx + n)) := by
      unfold wordRead; rw [List.range_succ, List.flatMap_append]; simp
    rw [hs]
    by_cases h : k < n
    · rw [List.getD_append _ _ _ _ (by simp; omega), List.getD_append _ _ _ _ (by simp; omega)]
      exact ih h
    · have : k = n := by omega
      subst this
      rw [List.getD_append_right _ _ _ _ (by simp), List.getD_append_right _ _ _ _ (by simp)]
      simp [wordBytes]

theorem wf_wordWrite {m : Memory 16} (hm : m.wf = true) (idx : Nat) (d : List Byte) (n : Nat) :
    (wordWrite m idx d n).wf = true := by
  induction n with
  | zero => exact hm
  | succ n ih => exact Memory.wf_write ih _ _

theorem within_wordWrite {m : Memory 16} {qty idx : Nat} (hm : m.within qty = true) (d : List Byte) {n : Nat}
    (h : idx + n ≤ qty) : (wordWrite m idx d n).within qty = true := by
  induction n with
  | zero => exact hm
  | succ n ih => exact Memory.within_write (ih (by omega)) (by omega) _

/-- A word write changes exactly the addressed words, to the data's byte pairs (R108). -/
theorem read_wordWrite {m : Memory 16} (hm : m.wf = true) (idx : Nat) (d : List Byte) (n i : Nat) :
    (wordWrite m idx d n).read i =
      if idx ≤ i ∧ i < idx + n then wordOf (d.getD (2 * (i - idx)) 0#8) (d.getD (2 * (i - idx) + 1) 0#8)
      else m.read i := by
  induction n with
  | zero => rw [if_neg (by omega)]; rfl
  | succ n ih =>
    rw [wordWrite, Memory.read_write (wf_wordWrite hm idx d n), ih]
    by_cases h : i = idx + n
    · rw [if_pos h, if_pos (by omega), h, Nat.add_sub_cancel_left]
    · rw [if_neg h]
      by_cases h2 : idx ≤ i ∧ i < idx + n
      · rw [if_pos h2, if_pos (by omega)]
      · rw [if_neg h2, if_neg (by omega)]

end Sys2Proof.Machine
end

