-- ==== Sys2Proof/Laws/Encoding.lean ====
section
/-! SUPPORT. The bits of an assembled word, and the fields the decoder reads from it (30_encoding R71). -/

namespace Sys2Proof

/-- Bit by bit, an assembled word is its low half word, ADDR, CNT and zeros. -/
theorem getLsbD_assemble (low addr cnt : Word) (k : Nat) :
    (assemble low addr cnt).getLsbD k =
      if k < 16 then low.getLsbD k
      else if k < 32 then addr.getLsbD (k - 16)
      else if k < 48 then cnt.getLsbD (k - 32)
      else false := by
  have h : (assemble low addr cnt).getLsbD k =
      BitVec.getLsbD (w := 16 + 16 + 16 + 16) (0#16 ++ cnt ++ addr ++ low) k := rfl
  rw [h, BitVec.getLsbD_append, BitVec.getLsbD_append, BitVec.getLsbD_append]
  by_cases h1 : k < 16
  · simp [h1]
  · by_cases h2 : k < 32
    · simp [h1, h2, show k - 16 < 16 by omega]
    · by_cases h3 : k < 48
      · simp [h1, h2, h3, show ¬ k - 16 < 16 by omega,
          show k - 16 - 16 = k - 32 by omega]; omega
      · simp [h1, h2, h3, show ¬ k - 16 < 16 by omega, show ¬ k - 16 - 16 < 16 by omega]

@[simp] theorem opc_assemble (low addr cnt : Word) : Cmd.opc (assemble low addr cnt) = low.extractLsb' 0 8 := by
  refine BitVec.eq_of_getLsbD_eq fun k hk => ?_
  rw [Cmd.opc, BitVec.getLsbD_extractLsb', BitVec.getLsbD_extractLsb', getLsbD_assemble, if_pos (by omega)]

@[simp] theorem sp_assemble (low addr cnt : Word) : Cmd.sp (assemble low addr cnt) = low.extractLsb' 8 2 := by
  refine BitVec.eq_of_getLsbD_eq fun k hk => ?_
  rw [Cmd.sp, BitVec.getLsbD_extractLsb', BitVec.getLsbD_extractLsb', getLsbD_assemble, if_pos (by omega)]

@[simp] theorem rsv0_assemble (low addr cnt : Word) : Cmd.rsv0 (assemble low addr cnt) = low.extractLsb' 10 6 := by
  refine BitVec.eq_of_getLsbD_eq fun k hk => ?_
  rw [Cmd.rsv0, BitVec.getLsbD_extractLsb', BitVec.getLsbD_extractLsb', getLsbD_assemble, if_pos (by omega)]

@[simp] theorem addr_assemble (low addr cnt : Word) : Cmd.addr (assemble low addr cnt) = addr := by
  refine BitVec.eq_of_getLsbD_eq fun k hk => ?_
  rw [Cmd.addr, BitVec.getLsbD_extractLsb', getLsbD_assemble, if_neg (by omega), if_pos (by omega),
    Nat.add_sub_cancel_left]
  simp [hk]

@[simp] theorem cnt_assemble (low addr cnt : Word) : Cmd.cnt (assemble low addr cnt) = cnt := by
  refine BitVec.eq_of_getLsbD_eq fun k hk => ?_
  rw [Cmd.cnt, BitVec.getLsbD_extractLsb', getLsbD_assemble, if_neg (by omega), if_neg (by omega), if_pos (by omega),
    Nat.add_sub_cancel_left]
  simp [hk]

@[simp] theorem rsv1_assemble (low addr cnt : Word) : Cmd.rsv1 (assemble low addr cnt) = 0#16 := by
  refine BitVec.eq_of_getLsbD_eq fun k hk => ?_
  rw [Cmd.rsv1, BitVec.getLsbD_extractLsb', getLsbD_assemble, if_neg (by omega), if_neg (by omega), if_neg (by omega)]
  simp

end Sys2Proof
end

