-- ==== Sys2Proof/Laws/State.lean ====
section
/-! SUPPORT. What each update of the state leaves in each field: one lemma a field an update, so that no proof
unfolds a record update. -/

namespace Sys2Proof.Machine

/-! `respond` -/

@[simp] theorem State.respond_params (st : Status) (d : List Byte) (s : State) :
    (s.respond st d).params = s.params := rfl
@[simp] theorem State.respond_bytesDI (st : Status) (d : List Byte) (s : State) :
    (s.respond st d).bytesDI = s.bytesDI := rfl
@[simp] theorem State.respond_bytesCO (st : Status) (d : List Byte) (s : State) :
    (s.respond st d).bytesCO = s.bytesCO := rfl
@[simp] theorem State.respond_wordsIR (st : Status) (d : List Byte) (s : State) :
    (s.respond st d).wordsIR = s.wordsIR := rfl
@[simp] theorem State.respond_wordsHR (st : Status) (d : List Byte) (s : State) :
    (s.respond st d).wordsHR = s.wordsHR := rfl
@[simp] theorem State.respond_mode (st : Status) (d : List Byte) (s : State) : (s.respond st d).mode = s.mode := rfl
@[simp] theorem State.respond_netcfg (st : Status) (d : List Byte) (s : State) :
    (s.respond st d).netcfg = s.netcfg := rfl
@[simp] theorem State.respond_linkUp (st : Status) (d : List Byte) (s : State) :
    (s.respond st d).linkUp = s.linkUp := rfl
@[simp] theorem State.respond_sockState (st : Status) (d : List Byte) (s : State) :
    (s.respond st d).sockState = s.sockState := rfl
@[simp] theorem State.respond_connected (st : Status) (d : List Byte) (s : State) :
    (s.respond st d).connected = s.connected := rfl
@[simp] theorem State.respond_txEn (st : Status) (d : List Byte) (s : State) : (s.respond st d).txEn = s.txEn := rfl
@[simp] theorem State.respond_txSent (st : Status) (d : List Byte) (s : State) :
    (s.respond st d).txSent = s.txSent := rfl
@[simp] theorem State.respond_rxEn (st : Status) (d : List Byte) (s : State) : (s.respond st d).rxEn = s.rxEn := rfl
@[simp] theorem State.respond_rxRecv (st : Status) (d : List Byte) (s : State) :
    (s.respond st d).rxRecv = s.rxRecv := rfl
@[simp] theorem State.respond_rxBuf (st : Status) (d : List Byte) (s : State) :
    (s.respond st d).rxBuf = s.rxBuf := rfl
@[simp] theorem State.respond_rxLen (st : Status) (d : List Byte) (s : State) :
    (s.respond st d).rxLen = s.rxLen := rfl
@[simp] theorem State.respond_txBuf (st : Status) (d : List Byte) (s : State) :
    (s.respond st d).txBuf = s.txBuf := rfl
@[simp] theorem State.respond_txLen (st : Status) (d : List Byte) (s : State) :
    (s.respond st d).txLen = s.txLen := rfl
@[simp] theorem State.respond_sockValid (st : Status) (d : List Byte) (s : State) :
    (s.respond st d).sockValid = s.sockValid := rfl
@[simp] theorem State.respond_initFailed (st : Status) (d : List Byte) (s : State) :
    (s.respond st d).initFailed = s.initFailed := rfl
@[simp] theorem State.respond_svc (st : Status) (d : List Byte) (s : State) : (s.respond st d).svc = s.svc := rfl
@[simp] theorem State.respond_savedEvent (st : Status) (d : List Byte) (s : State) :
    (s.respond st d).savedEvent = s.savedEvent := rfl
@[simp] theorem State.respond_slot (st : Status) (d : List Byte) (s : State) : (s.respond st d).slot = s.slot := rfl
@[simp] theorem State.respond_chipTrace (st : Status) (d : List Byte) (s : State) :
    (s.respond st d).chipTrace = s.chipTrace := rfl
@[simp] theorem State.respond_pending (st : Status) (d : List Byte) (s : State) :
    (s.respond st d).pending = s.pending := rfl
@[simp] theorem State.respond_din (st : Status) (d : List Byte) (s : State) : (s.respond st d).din = s.din := rfl
@[simp] theorem State.respond_responses (st : Status) (d : List Byte) (s : State) :
    (s.respond st d).responses = s.responses ++ [⟨st, d⟩] := rfl
@[simp] theorem State.respond_chip (st : Status) (d : List Byte) (s : State) : (s.respond st d).chip = s.chip := rfl
@[simp] theorem State.respond_draws (st : Status) (d : List Byte) (s : State) :
    (s.respond st d).draws = s.draws := rfl
@[simp] theorem State.respond_engine (st : Status) (d : List Byte) (s : State) :
    (s.respond st d).engine = s.engine := rfl
@[simp] theorem State.respond_outsidePuts (st : Status) (d : List Byte) (s : State) :
    (s.respond st d).outsidePuts = s.outsidePuts := rfl
@[simp] theorem State.respond_engineReads (st : Status) (d : List Byte) (s : State) :
    (s.respond st d).engineReads = s.engineReads := rfl

/-! `reject` -/

@[simp] theorem State.reject_params (st : Status) (s : State) : (s.reject st).params = s.params := rfl
@[simp] theorem State.reject_bytesDI (st : Status) (s : State) : (s.reject st).bytesDI = s.bytesDI := rfl
@[simp] theorem State.reject_bytesCO (st : Status) (s : State) : (s.reject st).bytesCO = s.bytesCO := rfl
@[simp] theorem State.reject_wordsIR (st : Status) (s : State) : (s.reject st).wordsIR = s.wordsIR := rfl
@[simp] theorem State.reject_wordsHR (st : Status) (s : State) : (s.reject st).wordsHR = s.wordsHR := rfl
@[simp] theorem State.reject_mode (st : Status) (s : State) : (s.reject st).mode = s.mode := rfl
@[simp] theorem State.reject_netcfg (st : Status) (s : State) : (s.reject st).netcfg = s.netcfg := rfl
@[simp] theorem State.reject_linkUp (st : Status) (s : State) : (s.reject st).linkUp = s.linkUp := rfl
@[simp] theorem State.reject_sockState (st : Status) (s : State) : (s.reject st).sockState = s.sockState := rfl
@[simp] theorem State.reject_connected (st : Status) (s : State) : (s.reject st).connected = s.connected := rfl
@[simp] theorem State.reject_txEn (st : Status) (s : State) : (s.reject st).txEn = s.txEn := rfl
@[simp] theorem State.reject_txSent (st : Status) (s : State) : (s.reject st).txSent = s.txSent := rfl
@[simp] theorem State.reject_rxEn (st : Status) (s : State) : (s.reject st).rxEn = s.rxEn := rfl
@[simp] theorem State.reject_rxRecv (st : Status) (s : State) : (s.reject st).rxRecv = s.rxRecv := rfl
@[simp] theorem State.reject_rxBuf (st : Status) (s : State) : (s.reject st).rxBuf = s.rxBuf := rfl
@[simp] theorem State.reject_rxLen (st : Status) (s : State) : (s.reject st).rxLen = s.rxLen := rfl
@[simp] theorem State.reject_txBuf (st : Status) (s : State) : (s.reject st).txBuf = s.txBuf := rfl
@[simp] theorem State.reject_txLen (st : Status) (s : State) : (s.reject st).txLen = s.txLen := rfl
@[simp] theorem State.reject_sockValid (st : Status) (s : State) : (s.reject st).sockValid = s.sockValid := rfl
@[simp] theorem State.reject_initFailed (st : Status) (s : State) : (s.reject st).initFailed = s.initFailed := rfl
@[simp] theorem State.reject_svc (st : Status) (s : State) : (s.reject st).svc = s.svc := rfl
@[simp] theorem State.reject_savedEvent (st : Status) (s : State) : (s.reject st).savedEvent = s.savedEvent := rfl
@[simp] theorem State.reject_slot (st : Status) (s : State) : (s.reject st).slot = s.slot := rfl
@[simp] theorem State.reject_chipTrace (st : Status) (s : State) : (s.reject st).chipTrace = s.chipTrace := rfl
@[simp] theorem State.reject_pending (st : Status) (s : State) : (s.reject st).pending = s.pending := rfl
@[simp] theorem State.reject_din (st : Status) (s : State) : (s.reject st).din = s.din := rfl
@[simp] theorem State.reject_responses (st : Status) (s : State) :
    (s.reject st).responses = s.responses ++ [⟨st, []⟩] := rfl
@[simp] theorem State.reject_chip (st : Status) (s : State) : (s.reject st).chip = s.chip := rfl
@[simp] theorem State.reject_draws (st : Status) (s : State) : (s.reject st).draws = s.draws := rfl
@[simp] theorem State.reject_engine (st : Status) (s : State) : (s.reject st).engine = s.engine := rfl
@[simp] theorem State.reject_outsidePuts (st : Status) (s : State) : (s.reject st).outsidePuts = s.outsidePuts := rfl
@[simp] theorem State.reject_engineReads (st : Status) (s : State) : (s.reject st).engineReads = s.engineReads := rfl

/-! `accept` -/

@[simp] theorem State.accept_params (c : Command) (s : State) : (s.accept c).params = s.params := rfl
@[simp] theorem State.accept_bytesDI (c : Command) (s : State) : (s.accept c).bytesDI = s.bytesDI := rfl
@[simp] theorem State.accept_bytesCO (c : Command) (s : State) : (s.accept c).bytesCO = s.bytesCO := rfl
@[simp] theorem State.accept_wordsIR (c : Command) (s : State) : (s.accept c).wordsIR = s.wordsIR := rfl
@[simp] theorem State.accept_wordsHR (c : Command) (s : State) : (s.accept c).wordsHR = s.wordsHR := rfl
@[simp] theorem State.accept_mode (c : Command) (s : State) : (s.accept c).mode = s.mode := rfl
@[simp] theorem State.accept_netcfg (c : Command) (s : State) : (s.accept c).netcfg = s.netcfg := rfl
@[simp] theorem State.accept_linkUp (c : Command) (s : State) : (s.accept c).linkUp = s.linkUp := rfl
@[simp] theorem State.accept_sockState (c : Command) (s : State) : (s.accept c).sockState = s.sockState := rfl
@[simp] theorem State.accept_connected (c : Command) (s : State) : (s.accept c).connected = s.connected := rfl
@[simp] theorem State.accept_txEn (c : Command) (s : State) : (s.accept c).txEn = s.txEn := rfl
@[simp] theorem State.accept_txSent (c : Command) (s : State) : (s.accept c).txSent = s.txSent := rfl
@[simp] theorem State.accept_rxEn (c : Command) (s : State) : (s.accept c).rxEn = s.rxEn := rfl
@[simp] theorem State.accept_rxRecv (c : Command) (s : State) : (s.accept c).rxRecv = s.rxRecv := rfl
@[simp] theorem State.accept_rxBuf (c : Command) (s : State) : (s.accept c).rxBuf = s.rxBuf := rfl
@[simp] theorem State.accept_rxLen (c : Command) (s : State) : (s.accept c).rxLen = s.rxLen := rfl
@[simp] theorem State.accept_txBuf (c : Command) (s : State) : (s.accept c).txBuf = s.txBuf := rfl
@[simp] theorem State.accept_txLen (c : Command) (s : State) : (s.accept c).txLen = s.txLen := rfl
@[simp] theorem State.accept_sockValid (c : Command) (s : State) : (s.accept c).sockValid = s.sockValid := rfl
@[simp] theorem State.accept_initFailed (c : Command) (s : State) : (s.accept c).initFailed = s.initFailed := rfl
@[simp] theorem State.accept_svc (c : Command) (s : State) : (s.accept c).svc = s.svc := rfl
@[simp] theorem State.accept_savedEvent (c : Command) (s : State) : (s.accept c).savedEvent = s.savedEvent := rfl
@[simp] theorem State.accept_slot (c : Command) (s : State) : (s.accept c).slot = s.slot := rfl
@[simp] theorem State.accept_chipTrace (c : Command) (s : State) : (s.accept c).chipTrace = s.chipTrace := rfl
@[simp] theorem State.accept_pending (c : Command) (s : State) : (s.accept c).pending = s.pending := rfl
@[simp] theorem State.accept_din (c : Command) (s : State) : (s.accept c).din = c.din := rfl
@[simp] theorem State.accept_responses (c : Command) (s : State) : (s.accept c).responses = s.responses := rfl
@[simp] theorem State.accept_chip (c : Command) (s : State) : (s.accept c).chip = s.chip := rfl
@[simp] theorem State.accept_draws (c : Command) (s : State) : (s.accept c).draws = s.draws := rfl
@[simp] theorem State.accept_engine (c : Command) (s : State) : (s.accept c).engine = s.engine := rfl
@[simp] theorem State.accept_outsidePuts (c : Command) (s : State) : (s.accept c).outsidePuts = s.outsidePuts := rfl
@[simp] theorem State.accept_engineReads (c : Command) (s : State) : (s.accept c).engineReads = s.engineReads := rfl

/-! `takePending` -/

@[simp] theorem State.takePending_params (c : Command) (l : List Command) (s : State) :
    (s.takePending c l).params = s.params := rfl
@[simp] theorem State.takePending_bytesDI (c : Command) (l : List Command) (s : State) :
    (s.takePending c l).bytesDI = s.bytesDI := rfl
@[simp] theorem State.takePending_bytesCO (c : Command) (l : List Command) (s : State) :
    (s.takePending c l).bytesCO = s.bytesCO := rfl
@[simp] theorem State.takePending_wordsIR (c : Command) (l : List Command) (s : State) :
    (s.takePending c l).wordsIR = s.wordsIR := rfl
@[simp] theorem State.takePending_wordsHR (c : Command) (l : List Command) (s : State) :
    (s.takePending c l).wordsHR = s.wordsHR := rfl
@[simp] theorem State.takePending_mode (c : Command) (l : List Command) (s : State) :
    (s.takePending c l).mode = s.mode := rfl
@[simp] theorem State.takePending_netcfg (c : Command) (l : List Command) (s : State) :
    (s.takePending c l).netcfg = s.netcfg := rfl
@[simp] theorem State.takePending_linkUp (c : Command) (l : List Command) (s : State) :
    (s.takePending c l).linkUp = s.linkUp := rfl
@[simp] theorem State.takePending_sockState (c : Command) (l : List Command) (s : State) :
    (s.takePending c l).sockState = s.sockState := rfl
@[simp] theorem State.takePending_connected (c : Command) (l : List Command) (s : State) :
    (s.takePending c l).connected = s.connected := rfl
@[simp] theorem State.takePending_txEn (c : Command) (l : List Command) (s : State) :
    (s.takePending c l).txEn = s.txEn := rfl
@[simp] theorem State.takePending_txSent (c : Command) (l : List Command) (s : State) :
    (s.takePending c l).txSent = s.txSent := rfl
@[simp] theorem State.takePending_rxEn (c : Command) (l : List Command) (s : State) :
    (s.takePending c l).rxEn = s.rxEn := rfl
@[simp] theorem State.takePending_rxRecv (c : Command) (l : List Command) (s : State) :
    (s.takePending c l).rxRecv = s.rxRecv := rfl
@[simp] theorem State.takePending_rxBuf (c : Command) (l : List Command) (s : State) :
    (s.takePending c l).rxBuf = s.rxBuf := rfl
@[simp] theorem State.takePending_rxLen (c : Command) (l : List Command) (s : State) :
    (s.takePending c l).rxLen = s.rxLen := rfl
@[simp] theorem State.takePending_txBuf (c : Command) (l : List Command) (s : State) :
    (s.takePending c l).txBuf = s.txBuf := rfl
@[simp] theorem State.takePending_txLen (c : Command) (l : List Command) (s : State) :
    (s.takePending c l).txLen = s.txLen := rfl
@[simp] theorem State.takePending_sockValid (c : Command) (l : List Command) (s : State) :
    (s.takePending c l).sockValid = s.sockValid := rfl
@[simp] theorem State.takePending_initFailed (c : Command) (l : List Command) (s : State) :
    (s.takePending c l).initFailed = s.initFailed := rfl
@[simp] theorem State.takePending_svc (c : Command) (l : List Command) (s : State) :
    (s.takePending c l).svc = s.svc := rfl
@[simp] theorem State.takePending_savedEvent (c : Command) (l : List Command) (s : State) :
    (s.takePending c l).savedEvent = s.savedEvent := rfl
@[simp] theorem State.takePending_slot (c : Command) (l : List Command) (s : State) :
    (s.takePending c l).slot = s.slot := rfl
@[simp] theorem State.takePending_chipTrace (c : Command) (l : List Command) (s : State) :
    (s.takePending c l).chipTrace = s.chipTrace := rfl
@[simp] theorem State.takePending_pending (c : Command) (l : List Command) (s : State) :
    (s.takePending c l).pending = l := rfl
@[simp] theorem State.takePending_din (c : Command) (l : List Command) (s : State) :
    (s.takePending c l).din = c.din := rfl
@[simp] theorem State.takePending_responses (c : Command) (l : List Command) (s : State) :
    (s.takePending c l).responses = s.responses := rfl
@[simp] theorem State.takePending_chip (c : Command) (l : List Command) (s : State) :
    (s.takePending c l).chip = s.chip := rfl
@[simp] theorem State.takePending_draws (c : Command) (l : List Command) (s : State) :
    (s.takePending c l).draws = s.draws := rfl
@[simp] theorem State.takePending_engine (c : Command) (l : List Command) (s : State) :
    (s.takePending c l).engine = s.engine := rfl
@[simp] theorem State.takePending_outsidePuts (c : Command) (l : List Command) (s : State) :
    (s.takePending c l).outsidePuts = s.outsidePuts := rfl
@[simp] theorem State.takePending_engineReads (c : Command) (l : List Command) (s : State) :
    (s.takePending c l).engineReads = s.engineReads := rfl

/-! `evPut` -/

@[simp] theorem State.evPut_params (v : Option Event) (s : State) : (s.evPut v).params = s.params := rfl
@[simp] theorem State.evPut_bytesDI (v : Option Event) (s : State) : (s.evPut v).bytesDI = s.bytesDI := rfl
@[simp] theorem State.evPut_bytesCO (v : Option Event) (s : State) : (s.evPut v).bytesCO = s.bytesCO := rfl
@[simp] theorem State.evPut_wordsIR (v : Option Event) (s : State) : (s.evPut v).wordsIR = s.wordsIR := rfl
@[simp] theorem State.evPut_wordsHR (v : Option Event) (s : State) : (s.evPut v).wordsHR = s.wordsHR := rfl
@[simp] theorem State.evPut_mode (v : Option Event) (s : State) : (s.evPut v).mode = s.mode := rfl
@[simp] theorem State.evPut_netcfg (v : Option Event) (s : State) : (s.evPut v).netcfg = s.netcfg := rfl
@[simp] theorem State.evPut_linkUp (v : Option Event) (s : State) : (s.evPut v).linkUp = s.linkUp := rfl
@[simp] theorem State.evPut_sockState (v : Option Event) (s : State) : (s.evPut v).sockState = s.sockState := rfl
@[simp] theorem State.evPut_connected (v : Option Event) (s : State) : (s.evPut v).connected = s.connected := rfl
@[simp] theorem State.evPut_txEn (v : Option Event) (s : State) : (s.evPut v).txEn = s.txEn := rfl
@[simp] theorem State.evPut_txSent (v : Option Event) (s : State) : (s.evPut v).txSent = s.txSent := rfl
@[simp] theorem State.evPut_rxEn (v : Option Event) (s : State) : (s.evPut v).rxEn = s.rxEn := rfl
@[simp] theorem State.evPut_rxRecv (v : Option Event) (s : State) : (s.evPut v).rxRecv = s.rxRecv := rfl
@[simp] theorem State.evPut_rxBuf (v : Option Event) (s : State) : (s.evPut v).rxBuf = s.rxBuf := rfl
@[simp] theorem State.evPut_rxLen (v : Option Event) (s : State) : (s.evPut v).rxLen = s.rxLen := rfl
@[simp] theorem State.evPut_txBuf (v : Option Event) (s : State) : (s.evPut v).txBuf = s.txBuf := rfl
@[simp] theorem State.evPut_txLen (v : Option Event) (s : State) : (s.evPut v).txLen = s.txLen := rfl
@[simp] theorem State.evPut_sockValid (v : Option Event) (s : State) : (s.evPut v).sockValid = s.sockValid := rfl
@[simp] theorem State.evPut_initFailed (v : Option Event) (s : State) : (s.evPut v).initFailed = s.initFailed := rfl
@[simp] theorem State.evPut_svc (v : Option Event) (s : State) : (s.evPut v).svc = s.svc := rfl
@[simp] theorem State.evPut_savedEvent (v : Option Event) (s : State) : (s.evPut v).savedEvent = s.savedEvent := rfl
@[simp] theorem State.evPut_slot (v : Option Event) (s : State) : (s.evPut v).slot = v := rfl
@[simp] theorem State.evPut_chipTrace (v : Option Event) (s : State) : (s.evPut v).chipTrace = s.chipTrace := rfl
@[simp] theorem State.evPut_pending (v : Option Event) (s : State) : (s.evPut v).pending = s.pending := rfl
@[simp] theorem State.evPut_din (v : Option Event) (s : State) : (s.evPut v).din = s.din := rfl
@[simp] theorem State.evPut_responses (v : Option Event) (s : State) : (s.evPut v).responses = s.responses := rfl
@[simp] theorem State.evPut_chip (v : Option Event) (s : State) : (s.evPut v).chip = s.chip := rfl
@[simp] theorem State.evPut_draws (v : Option Event) (s : State) : (s.evPut v).draws = s.draws := rfl
@[simp] theorem State.evPut_engine (v : Option Event) (s : State) : (s.evPut v).engine = s.engine := rfl
@[simp] theorem State.evPut_outsidePuts (v : Option Event) (s : State) :
    (s.evPut v).outsidePuts = s.outsidePuts := rfl
@[simp] theorem State.evPut_engineReads (v : Option Event) (s : State) :
    (s.evPut v).engineReads = s.engineReads := rfl

/-! `outside` -/

@[simp] theorem State.outside_params (s : State) :
    (s.outside).params = s.params := by unfold State.outside; split <;> simp_all
@[simp] theorem State.outside_bytesDI (s : State) :
    (s.outside).bytesDI = s.bytesDI := by unfold State.outside; split <;> simp_all
@[simp] theorem State.outside_bytesCO (s : State) :
    (s.outside).bytesCO = s.bytesCO := by unfold State.outside; split <;> simp_all
@[simp] theorem State.outside_wordsIR (s : State) :
    (s.outside).wordsIR = s.wordsIR := by unfold State.outside; split <;> simp_all
@[simp] theorem State.outside_wordsHR (s : State) :
    (s.outside).wordsHR = s.wordsHR := by unfold State.outside; split <;> simp_all
@[simp] theorem State.outside_mode (s : State) :
    (s.outside).mode = s.mode := by unfold State.outside; split <;> simp_all
@[simp] theorem State.outside_netcfg (s : State) :
    (s.outside).netcfg = s.netcfg := by unfold State.outside; split <;> simp_all
@[simp] theorem State.outside_linkUp (s : State) :
    (s.outside).linkUp = s.linkUp := by unfold State.outside; split <;> simp_all
@[simp] theorem State.outside_sockState (s : State) :
    (s.outside).sockState = s.sockState := by unfold State.outside; split <;> simp_all
@[simp] theorem State.outside_connected (s : State) :
    (s.outside).connected = s.connected := by unfold State.outside; split <;> simp_all
@[simp] theorem State.outside_txEn (s : State) :
    (s.outside).txEn = s.txEn := by unfold State.outside; split <;> simp_all
@[simp] theorem State.outside_txSent (s : State) :
    (s.outside).txSent = s.txSent := by unfold State.outside; split <;> simp_all
@[simp] theorem State.outside_rxEn (s : State) :
    (s.outside).rxEn = s.rxEn := by unfold State.outside; split <;> simp_all
@[simp] theorem State.outside_rxRecv (s : State) :
    (s.outside).rxRecv = s.rxRecv := by unfold State.outside; split <;> simp_all
@[simp] theorem State.outside_rxBuf (s : State) :
    (s.outside).rxBuf = s.rxBuf := by unfold State.outside; split <;> simp_all
@[simp] theorem State.outside_rxLen (s : State) :
    (s.outside).rxLen = s.rxLen := by unfold State.outside; split <;> simp_all
@[simp] theorem State.outside_txBuf (s : State) :
    (s.outside).txBuf = s.txBuf := by unfold State.outside; split <;> simp_all
@[simp] theorem State.outside_txLen (s : State) :
    (s.outside).txLen = s.txLen := by unfold State.outside; split <;> simp_all
@[simp] theorem State.outside_sockValid (s : State) :
    (s.outside).sockValid = s.sockValid := by unfold State.outside; split <;> simp_all
@[simp] theorem State.outside_initFailed (s : State) :
    (s.outside).initFailed = s.initFailed := by unfold State.outside; split <;> simp_all
@[simp] theorem State.outside_svc (s : State) : (s.outside).svc = s.svc := by unfold State.outside; split <;> simp_all
@[simp] theorem State.outside_savedEvent (s : State) :
    (s.outside).savedEvent = s.savedEvent := by unfold State.outside; split <;> simp_all
@[simp] theorem State.outside_chipTrace (s : State) :
    (s.outside).chipTrace = s.chipTrace := by unfold State.outside; split <;> simp_all
@[simp] theorem State.outside_pending (s : State) :
    (s.outside).pending = s.pending := by unfold State.outside; split <;> simp_all
@[simp] theorem State.outside_din (s : State) : (s.outside).din = s.din := by unfold State.outside; split <;> simp_all
@[simp] theorem State.outside_responses (s : State) :
    (s.outside).responses = s.responses := by unfold State.outside; split <;> simp_all
@[simp] theorem State.outside_chip (s : State) :
    (s.outside).chip = s.chip := by unfold State.outside; split <;> simp_all
@[simp] theorem State.outside_draws (s : State) :
    (s.outside).draws = s.draws := by unfold State.outside; split <;> simp_all
@[simp] theorem State.outside_engine (s : State) :
    (s.outside).engine = s.engine := by unfold State.outside; split <;> simp_all
@[simp] theorem State.outside_outsidePuts (s : State) :
    (s.outside).outsidePuts = s.outsidePuts.tail := by unfold State.outside; split <;> simp_all
@[simp] theorem State.outside_engineReads (s : State) :
    (s.outside).engineReads = s.engineReads := by unfold State.outside; split <;> simp_all

/-! `issue` -/

@[simp] theorem State.issue_params (op : ChipOp) (s : State) : (s.issue op).params = s.params := rfl
@[simp] theorem State.issue_bytesDI (op : ChipOp) (s : State) : (s.issue op).bytesDI = s.bytesDI := rfl
@[simp] theorem State.issue_bytesCO (op : ChipOp) (s : State) : (s.issue op).bytesCO = s.bytesCO := rfl
@[simp] theorem State.issue_wordsIR (op : ChipOp) (s : State) : (s.issue op).wordsIR = s.wordsIR := rfl
@[simp] theorem State.issue_wordsHR (op : ChipOp) (s : State) : (s.issue op).wordsHR = s.wordsHR := rfl
@[simp] theorem State.issue_mode (op : ChipOp) (s : State) : (s.issue op).mode = s.mode := rfl
@[simp] theorem State.issue_netcfg (op : ChipOp) (s : State) : (s.issue op).netcfg = s.netcfg := rfl
@[simp] theorem State.issue_linkUp (op : ChipOp) (s : State) : (s.issue op).linkUp = s.linkUp := rfl
@[simp] theorem State.issue_sockState (op : ChipOp) (s : State) : (s.issue op).sockState = s.sockState := rfl
@[simp] theorem State.issue_connected (op : ChipOp) (s : State) : (s.issue op).connected = s.connected := rfl
@[simp] theorem State.issue_txEn (op : ChipOp) (s : State) : (s.issue op).txEn = s.txEn := rfl
@[simp] theorem State.issue_txSent (op : ChipOp) (s : State) : (s.issue op).txSent = s.txSent := rfl
@[simp] theorem State.issue_rxEn (op : ChipOp) (s : State) : (s.issue op).rxEn = s.rxEn := rfl
@[simp] theorem State.issue_rxRecv (op : ChipOp) (s : State) : (s.issue op).rxRecv = s.rxRecv := rfl
@[simp] theorem State.issue_rxBuf (op : ChipOp) (s : State) : (s.issue op).rxBuf = s.rxBuf := rfl
@[simp] theorem State.issue_rxLen (op : ChipOp) (s : State) : (s.issue op).rxLen = s.rxLen := rfl
@[simp] theorem State.issue_txBuf (op : ChipOp) (s : State) : (s.issue op).txBuf = s.txBuf := rfl
@[simp] theorem State.issue_txLen (op : ChipOp) (s : State) : (s.issue op).txLen = s.txLen := rfl
@[simp] theorem State.issue_sockValid (op : ChipOp) (s : State) : (s.issue op).sockValid = s.sockValid := rfl
@[simp] theorem State.issue_initFailed (op : ChipOp) (s : State) : (s.issue op).initFailed = s.initFailed := rfl
@[simp] theorem State.issue_svc (op : ChipOp) (s : State) : (s.issue op).svc = s.svc := rfl
@[simp] theorem State.issue_savedEvent (op : ChipOp) (s : State) : (s.issue op).savedEvent = s.savedEvent := rfl
@[simp] theorem State.issue_slot (op : ChipOp) (s : State) : (s.issue op).slot = s.slot := rfl
@[simp] theorem State.issue_chipTrace (op : ChipOp) (s : State) : (s.issue op).chipTrace = s.chipTrace ++ [op] := rfl
@[simp] theorem State.issue_pending (op : ChipOp) (s : State) : (s.issue op).pending = s.pending := rfl
@[simp] theorem State.issue_din (op : ChipOp) (s : State) : (s.issue op).din = s.din := rfl
@[simp] theorem State.issue_responses (op : ChipOp) (s : State) : (s.issue op).responses = s.responses := rfl
@[simp] theorem State.issue_chip (op : ChipOp) (s : State) : (s.issue op).chip = s.chip := rfl
@[simp] theorem State.issue_draws (op : ChipOp) (s : State) : (s.issue op).draws = s.draws := rfl
@[simp] theorem State.issue_engine (op : ChipOp) (s : State) : (s.issue op).engine = s.engine := rfl
@[simp] theorem State.issue_outsidePuts (op : ChipOp) (s : State) : (s.issue op).outsidePuts = s.outsidePuts := rfl
@[simp] theorem State.issue_engineReads (op : ChipOp) (s : State) : (s.issue op).engineReads = s.engineReads := rfl

/-! `drawChip` -/

@[simp] theorem State.drawChip_params (s : State) : (s.drawChip).params = s.params := rfl
@[simp] theorem State.drawChip_bytesDI (s : State) : (s.drawChip).bytesDI = s.bytesDI := rfl
@[simp] theorem State.drawChip_bytesCO (s : State) : (s.drawChip).bytesCO = s.bytesCO := rfl
@[simp] theorem State.drawChip_wordsIR (s : State) : (s.drawChip).wordsIR = s.wordsIR := rfl
@[simp] theorem State.drawChip_wordsHR (s : State) : (s.drawChip).wordsHR = s.wordsHR := rfl
@[simp] theorem State.drawChip_mode (s : State) : (s.drawChip).mode = s.mode := rfl
@[simp] theorem State.drawChip_netcfg (s : State) : (s.drawChip).netcfg = s.netcfg := rfl
@[simp] theorem State.drawChip_linkUp (s : State) : (s.drawChip).linkUp = s.linkUp := rfl
@[simp] theorem State.drawChip_sockState (s : State) : (s.drawChip).sockState = s.sockState := rfl
@[simp] theorem State.drawChip_connected (s : State) : (s.drawChip).connected = s.connected := rfl
@[simp] theorem State.drawChip_txEn (s : State) : (s.drawChip).txEn = s.txEn := rfl
@[simp] theorem State.drawChip_txSent (s : State) : (s.drawChip).txSent = s.txSent := rfl
@[simp] theorem State.drawChip_rxEn (s : State) : (s.drawChip).rxEn = s.rxEn := rfl
@[simp] theorem State.drawChip_rxRecv (s : State) : (s.drawChip).rxRecv = s.rxRecv := rfl
@[simp] theorem State.drawChip_rxBuf (s : State) : (s.drawChip).rxBuf = s.rxBuf := rfl
@[simp] theorem State.drawChip_rxLen (s : State) : (s.drawChip).rxLen = s.rxLen := rfl
@[simp] theorem State.drawChip_txBuf (s : State) : (s.drawChip).txBuf = s.txBuf := rfl
@[simp] theorem State.drawChip_txLen (s : State) : (s.drawChip).txLen = s.txLen := rfl
@[simp] theorem State.drawChip_sockValid (s : State) : (s.drawChip).sockValid = s.sockValid := rfl
@[simp] theorem State.drawChip_initFailed (s : State) : (s.drawChip).initFailed = s.initFailed := rfl
@[simp] theorem State.drawChip_svc (s : State) : (s.drawChip).svc = s.svc := rfl
@[simp] theorem State.drawChip_savedEvent (s : State) : (s.drawChip).savedEvent = s.savedEvent := rfl
@[simp] theorem State.drawChip_slot (s : State) : (s.drawChip).slot = s.slot := rfl
@[simp] theorem State.drawChip_chipTrace (s : State) : (s.drawChip).chipTrace = s.chipTrace := rfl
@[simp] theorem State.drawChip_pending (s : State) : (s.drawChip).pending = s.pending := rfl
@[simp] theorem State.drawChip_din (s : State) : (s.drawChip).din = s.din := rfl
@[simp] theorem State.drawChip_responses (s : State) : (s.drawChip).responses = s.responses := rfl
@[simp] theorem State.drawChip_chip (s : State) : (s.drawChip).chip = s.chip.tail := rfl
@[simp] theorem State.drawChip_draws (s : State) : (s.drawChip).draws = s.draws + 1 := rfl
@[simp] theorem State.drawChip_engine (s : State) : (s.drawChip).engine = s.engine := rfl
@[simp] theorem State.drawChip_outsidePuts (s : State) : (s.drawChip).outsidePuts = s.outsidePuts := rfl
@[simp] theorem State.drawChip_engineReads (s : State) : (s.drawChip).engineReads = s.engineReads := rfl

/-! `drawEngine` -/

@[simp] theorem State.drawEngine_params (s : State) : (s.drawEngine).params = s.params := rfl
@[simp] theorem State.drawEngine_bytesDI (s : State) : (s.drawEngine).bytesDI = s.bytesDI := rfl
@[simp] theorem State.drawEngine_bytesCO (s : State) : (s.drawEngine).bytesCO = s.bytesCO := rfl
@[simp] theorem State.drawEngine_wordsIR (s : State) : (s.drawEngine).wordsIR = s.wordsIR := rfl
@[simp] theorem State.drawEngine_wordsHR (s : State) : (s.drawEngine).wordsHR = s.wordsHR := rfl
@[simp] theorem State.drawEngine_mode (s : State) : (s.drawEngine).mode = s.mode := rfl
@[simp] theorem State.drawEngine_netcfg (s : State) : (s.drawEngine).netcfg = s.netcfg := rfl
@[simp] theorem State.drawEngine_linkUp (s : State) : (s.drawEngine).linkUp = s.linkUp := rfl
@[simp] theorem State.drawEngine_sockState (s : State) : (s.drawEngine).sockState = s.sockState := rfl
@[simp] theorem State.drawEngine_connected (s : State) : (s.drawEngine).connected = s.connected := rfl
@[simp] theorem State.drawEngine_txEn (s : State) : (s.drawEngine).txEn = s.txEn := rfl
@[simp] theorem State.drawEngine_txSent (s : State) : (s.drawEngine).txSent = s.txSent := rfl
@[simp] theorem State.drawEngine_rxEn (s : State) : (s.drawEngine).rxEn = s.rxEn := rfl
@[simp] theorem State.drawEngine_rxRecv (s : State) : (s.drawEngine).rxRecv = s.rxRecv := rfl
@[simp] theorem State.drawEngine_rxBuf (s : State) : (s.drawEngine).rxBuf = s.rxBuf := rfl
@[simp] theorem State.drawEngine_rxLen (s : State) : (s.drawEngine).rxLen = s.rxLen := rfl
@[simp] theorem State.drawEngine_txBuf (s : State) : (s.drawEngine).txBuf = s.txBuf := rfl
@[simp] theorem State.drawEngine_txLen (s : State) : (s.drawEngine).txLen = s.txLen := rfl
@[simp] theorem State.drawEngine_sockValid (s : State) : (s.drawEngine).sockValid = s.sockValid := rfl
@[simp] theorem State.drawEngine_initFailed (s : State) : (s.drawEngine).initFailed = s.initFailed := rfl
@[simp] theorem State.drawEngine_svc (s : State) : (s.drawEngine).svc = s.svc := rfl
@[simp] theorem State.drawEngine_savedEvent (s : State) : (s.drawEngine).savedEvent = s.savedEvent := rfl
@[simp] theorem State.drawEngine_slot (s : State) : (s.drawEngine).slot = s.slot := rfl
@[simp] theorem State.drawEngine_chipTrace (s : State) : (s.drawEngine).chipTrace = s.chipTrace := rfl
@[simp] theorem State.drawEngine_pending (s : State) : (s.drawEngine).pending = s.pending := rfl
@[simp] theorem State.drawEngine_din (s : State) : (s.drawEngine).din = s.din := rfl
@[simp] theorem State.drawEngine_responses (s : State) : (s.drawEngine).responses = s.responses := rfl
@[simp] theorem State.drawEngine_chip (s : State) : (s.drawEngine).chip = s.chip := rfl
@[simp] theorem State.drawEngine_draws (s : State) : (s.drawEngine).draws = s.draws + 1 := rfl
@[simp] theorem State.drawEngine_engine (s : State) : (s.drawEngine).engine = s.engine.tail := rfl
@[simp] theorem State.drawEngine_outsidePuts (s : State) : (s.drawEngine).outsidePuts = s.outsidePuts := rfl
@[simp] theorem State.drawEngine_engineReads (s : State) : (s.drawEngine).engineReads = s.engineReads := rfl

/-! `descriptorReset` -/

@[simp] theorem State.descriptorReset_params (s : State) : (s.descriptorReset).params = s.params := rfl
@[simp] theorem State.descriptorReset_bytesDI (s : State) : (s.descriptorReset).bytesDI = s.bytesDI := rfl
@[simp] theorem State.descriptorReset_bytesCO (s : State) : (s.descriptorReset).bytesCO = s.bytesCO := rfl
@[simp] theorem State.descriptorReset_wordsIR (s : State) : (s.descriptorReset).wordsIR = s.wordsIR := rfl
@[simp] theorem State.descriptorReset_wordsHR (s : State) : (s.descriptorReset).wordsHR = s.wordsHR := rfl
@[simp] theorem State.descriptorReset_mode (s : State) : (s.descriptorReset).mode = s.mode := rfl
@[simp] theorem State.descriptorReset_netcfg (s : State) : (s.descriptorReset).netcfg = s.netcfg := rfl
@[simp] theorem State.descriptorReset_linkUp (s : State) : (s.descriptorReset).linkUp = false := rfl
@[simp] theorem State.descriptorReset_sockState (s : State) :
    (s.descriptorReset).sockState = closedCode s.params := rfl
@[simp] theorem State.descriptorReset_connected (s : State) : (s.descriptorReset).connected = false := rfl
@[simp] theorem State.descriptorReset_txEn (s : State) : (s.descriptorReset).txEn = false := rfl
@[simp] theorem State.descriptorReset_txSent (s : State) : (s.descriptorReset).txSent = false := rfl
@[simp] theorem State.descriptorReset_rxEn (s : State) : (s.descriptorReset).rxEn = s.rxEn := rfl
@[simp] theorem State.descriptorReset_rxRecv (s : State) : (s.descriptorReset).rxRecv = false := rfl
@[simp] theorem State.descriptorReset_rxBuf (s : State) : (s.descriptorReset).rxBuf = s.rxBuf := rfl
@[simp] theorem State.descriptorReset_rxLen (s : State) : (s.descriptorReset).rxLen = 0#16 := rfl
@[simp] theorem State.descriptorReset_txBuf (s : State) : (s.descriptorReset).txBuf = s.txBuf := rfl
@[simp] theorem State.descriptorReset_txLen (s : State) : (s.descriptorReset).txLen = 0#16 := rfl
@[simp] theorem State.descriptorReset_sockValid (s : State) : (s.descriptorReset).sockValid = s.sockValid := rfl
@[simp] theorem State.descriptorReset_initFailed (s : State) : (s.descriptorReset).initFailed = s.initFailed := rfl
@[simp] theorem State.descriptorReset_svc (s : State) : (s.descriptorReset).svc = s.svc := rfl
@[simp] theorem State.descriptorReset_savedEvent (s : State) : (s.descriptorReset).savedEvent = s.savedEvent := rfl
@[simp] theorem State.descriptorReset_slot (s : State) : (s.descriptorReset).slot = s.slot := rfl
@[simp] theorem State.descriptorReset_chipTrace (s : State) : (s.descriptorReset).chipTrace = s.chipTrace := rfl
@[simp] theorem State.descriptorReset_pending (s : State) : (s.descriptorReset).pending = s.pending := rfl
@[simp] theorem State.descriptorReset_din (s : State) : (s.descriptorReset).din = s.din := rfl
@[simp] theorem State.descriptorReset_responses (s : State) : (s.descriptorReset).responses = s.responses := rfl
@[simp] theorem State.descriptorReset_chip (s : State) : (s.descriptorReset).chip = s.chip := rfl
@[simp] theorem State.descriptorReset_draws (s : State) : (s.descriptorReset).draws = s.draws := rfl
@[simp] theorem State.descriptorReset_engine (s : State) : (s.descriptorReset).engine = s.engine := rfl
@[simp] theorem State.descriptorReset_outsidePuts (s : State) : (s.descriptorReset).outsidePuts = s.outsidePuts := rfl
@[simp] theorem State.descriptorReset_engineReads (s : State) : (s.descriptorReset).engineReads = s.engineReads := rfl

/-! `markInit` -/

@[simp] theorem State.markInit_params (ok : Bool) (s : State) : (s.markInit ok).params = s.params := rfl
@[simp] theorem State.markInit_bytesDI (ok : Bool) (s : State) : (s.markInit ok).bytesDI = s.bytesDI := rfl
@[simp] theorem State.markInit_bytesCO (ok : Bool) (s : State) : (s.markInit ok).bytesCO = s.bytesCO := rfl
@[simp] theorem State.markInit_wordsIR (ok : Bool) (s : State) : (s.markInit ok).wordsIR = s.wordsIR := rfl
@[simp] theorem State.markInit_wordsHR (ok : Bool) (s : State) : (s.markInit ok).wordsHR = s.wordsHR := rfl
@[simp] theorem State.markInit_mode (ok : Bool) (s : State) : (s.markInit ok).mode = s.mode := rfl
@[simp] theorem State.markInit_netcfg (ok : Bool) (s : State) : (s.markInit ok).netcfg = s.netcfg := rfl
@[simp] theorem State.markInit_linkUp (ok : Bool) (s : State) : (s.markInit ok).linkUp = s.linkUp := rfl
@[simp] theorem State.markInit_sockState (ok : Bool) (s : State) : (s.markInit ok).sockState = s.sockState := rfl
@[simp] theorem State.markInit_connected (ok : Bool) (s : State) : (s.markInit ok).connected = s.connected := rfl
@[simp] theorem State.markInit_txEn (ok : Bool) (s : State) : (s.markInit ok).txEn = s.txEn := rfl
@[simp] theorem State.markInit_txSent (ok : Bool) (s : State) : (s.markInit ok).txSent = s.txSent := rfl
@[simp] theorem State.markInit_rxEn (ok : Bool) (s : State) : (s.markInit ok).rxEn = s.rxEn := rfl
@[simp] theorem State.markInit_rxRecv (ok : Bool) (s : State) : (s.markInit ok).rxRecv = s.rxRecv := rfl
@[simp] theorem State.markInit_rxBuf (ok : Bool) (s : State) : (s.markInit ok).rxBuf = s.rxBuf := rfl
@[simp] theorem State.markInit_rxLen (ok : Bool) (s : State) : (s.markInit ok).rxLen = s.rxLen := rfl
@[simp] theorem State.markInit_txBuf (ok : Bool) (s : State) : (s.markInit ok).txBuf = s.txBuf := rfl
@[simp] theorem State.markInit_txLen (ok : Bool) (s : State) : (s.markInit ok).txLen = s.txLen := rfl
@[simp] theorem State.markInit_sockValid (ok : Bool) (s : State) : (s.markInit ok).sockValid = ok := rfl
@[simp] theorem State.markInit_initFailed (ok : Bool) (s : State) : (s.markInit ok).initFailed = !ok := rfl
@[simp] theorem State.markInit_svc (ok : Bool) (s : State) : (s.markInit ok).svc = s.svc := rfl
@[simp] theorem State.markInit_savedEvent (ok : Bool) (s : State) : (s.markInit ok).savedEvent = s.savedEvent := rfl
@[simp] theorem State.markInit_slot (ok : Bool) (s : State) : (s.markInit ok).slot = s.slot := rfl
@[simp] theorem State.markInit_chipTrace (ok : Bool) (s : State) : (s.markInit ok).chipTrace = s.chipTrace := rfl
@[simp] theorem State.markInit_pending (ok : Bool) (s : State) : (s.markInit ok).pending = s.pending := rfl
@[simp] theorem State.markInit_din (ok : Bool) (s : State) : (s.markInit ok).din = s.din := rfl
@[simp] theorem State.markInit_responses (ok : Bool) (s : State) : (s.markInit ok).responses = s.responses := rfl
@[simp] theorem State.markInit_chip (ok : Bool) (s : State) : (s.markInit ok).chip = s.chip := rfl
@[simp] theorem State.markInit_draws (ok : Bool) (s : State) : (s.markInit ok).draws = s.draws := rfl
@[simp] theorem State.markInit_engine (ok : Bool) (s : State) : (s.markInit ok).engine = s.engine := rfl
@[simp] theorem State.markInit_outsidePuts (ok : Bool) (s : State) :
    (s.markInit ok).outsidePuts = s.outsidePuts := rfl
@[simp] theorem State.markInit_engineReads (ok : Bool) (s : State) :
    (s.markInit ok).engineReads = s.engineReads := rfl

/-! `releaseSocket` -/

@[simp] theorem State.releaseSocket_params (s : State) : (s.releaseSocket).params = s.params := rfl
@[simp] theorem State.releaseSocket_bytesDI (s : State) : (s.releaseSocket).bytesDI = s.bytesDI := rfl
@[simp] theorem State.releaseSocket_bytesCO (s : State) : (s.releaseSocket).bytesCO = s.bytesCO := rfl
@[simp] theorem State.releaseSocket_wordsIR (s : State) : (s.releaseSocket).wordsIR = s.wordsIR := rfl
@[simp] theorem State.releaseSocket_wordsHR (s : State) : (s.releaseSocket).wordsHR = s.wordsHR := rfl
@[simp] theorem State.releaseSocket_mode (s : State) : (s.releaseSocket).mode = s.mode := rfl
@[simp] theorem State.releaseSocket_netcfg (s : State) : (s.releaseSocket).netcfg = s.netcfg := rfl
@[simp] theorem State.releaseSocket_linkUp (s : State) : (s.releaseSocket).linkUp = false := rfl
@[simp] theorem State.releaseSocket_sockState (s : State) : (s.releaseSocket).sockState = s.sockState := rfl
@[simp] theorem State.releaseSocket_connected (s : State) : (s.releaseSocket).connected = false := rfl
@[simp] theorem State.releaseSocket_txEn (s : State) : (s.releaseSocket).txEn = s.txEn := rfl
@[simp] theorem State.releaseSocket_txSent (s : State) : (s.releaseSocket).txSent = s.txSent := rfl
@[simp] theorem State.releaseSocket_rxEn (s : State) : (s.releaseSocket).rxEn = s.rxEn := rfl
@[simp] theorem State.releaseSocket_rxRecv (s : State) : (s.releaseSocket).rxRecv = s.rxRecv := rfl
@[simp] theorem State.releaseSocket_rxBuf (s : State) : (s.releaseSocket).rxBuf = s.rxBuf := rfl
@[simp] theorem State.releaseSocket_rxLen (s : State) : (s.releaseSocket).rxLen = s.rxLen := rfl
@[simp] theorem State.releaseSocket_txBuf (s : State) : (s.releaseSocket).txBuf = s.txBuf := rfl
@[simp] theorem State.releaseSocket_txLen (s : State) : (s.releaseSocket).txLen = s.txLen := rfl
@[simp] theorem State.releaseSocket_sockValid (s : State) : (s.releaseSocket).sockValid = false := rfl
@[simp] theorem State.releaseSocket_initFailed (s : State) : (s.releaseSocket).initFailed = s.initFailed := rfl
@[simp] theorem State.releaseSocket_svc (s : State) : (s.releaseSocket).svc = s.svc := rfl
@[simp] theorem State.releaseSocket_savedEvent (s : State) : (s.releaseSocket).savedEvent = s.savedEvent := rfl
@[simp] theorem State.releaseSocket_slot (s : State) : (s.releaseSocket).slot = s.slot := rfl
@[simp] theorem State.releaseSocket_chipTrace (s : State) : (s.releaseSocket).chipTrace = s.chipTrace := rfl
@[simp] theorem State.releaseSocket_pending (s : State) : (s.releaseSocket).pending = s.pending := rfl
@[simp] theorem State.releaseSocket_din (s : State) : (s.releaseSocket).din = s.din := rfl
@[simp] theorem State.releaseSocket_responses (s : State) : (s.releaseSocket).responses = s.responses := rfl
@[simp] theorem State.releaseSocket_chip (s : State) : (s.releaseSocket).chip = s.chip := rfl
@[simp] theorem State.releaseSocket_draws (s : State) : (s.releaseSocket).draws = s.draws := rfl
@[simp] theorem State.releaseSocket_engine (s : State) : (s.releaseSocket).engine = s.engine := rfl
@[simp] theorem State.releaseSocket_outsidePuts (s : State) : (s.releaseSocket).outsidePuts = s.outsidePuts := rfl
@[simp] theorem State.releaseSocket_engineReads (s : State) : (s.releaseSocket).engineReads = s.engineReads := rfl

/-! `loadResponse` -/

@[simp] theorem State.loadResponse_params (len : Word) (s : State) : (s.loadResponse len).params = s.params := rfl
@[simp] theorem State.loadResponse_bytesDI (len : Word) (s : State) : (s.loadResponse len).bytesDI = s.bytesDI := rfl
@[simp] theorem State.loadResponse_bytesCO (len : Word) (s : State) : (s.loadResponse len).bytesCO = s.bytesCO := rfl
@[simp] theorem State.loadResponse_wordsIR (len : Word) (s : State) : (s.loadResponse len).wordsIR = s.wordsIR := rfl
@[simp] theorem State.loadResponse_wordsHR (len : Word) (s : State) : (s.loadResponse len).wordsHR = s.wordsHR := rfl
@[simp] theorem State.loadResponse_mode (len : Word) (s : State) : (s.loadResponse len).mode = s.mode := rfl
@[simp] theorem State.loadResponse_netcfg (len : Word) (s : State) : (s.loadResponse len).netcfg = s.netcfg := rfl
@[simp] theorem State.loadResponse_linkUp (len : Word) (s : State) : (s.loadResponse len).linkUp = s.linkUp := rfl
@[simp] theorem State.loadResponse_sockState (len : Word) (s : State) :
    (s.loadResponse len).sockState = s.sockState := rfl
@[simp] theorem State.loadResponse_connected (len : Word) (s : State) :
    (s.loadResponse len).connected = s.connected := rfl
@[simp] theorem State.loadResponse_txEn (len : Word) (s : State) : (s.loadResponse len).txEn = true := rfl
@[simp] theorem State.loadResponse_txSent (len : Word) (s : State) : (s.loadResponse len).txSent = s.txSent := rfl
@[simp] theorem State.loadResponse_rxEn (len : Word) (s : State) : (s.loadResponse len).rxEn = s.rxEn := rfl
@[simp] theorem State.loadResponse_rxRecv (len : Word) (s : State) : (s.loadResponse len).rxRecv = s.rxRecv := rfl
@[simp] theorem State.loadResponse_rxBuf (len : Word) (s : State) : (s.loadResponse len).rxBuf = s.rxBuf := rfl
@[simp] theorem State.loadResponse_rxLen (len : Word) (s : State) : (s.loadResponse len).rxLen = s.rxLen := rfl
@[simp] theorem State.loadResponse_txBuf (len : Word) (s : State) :
    (s.loadResponse len).txBuf = Memory.writeBytes s.txBuf (s.din.take len.toNat) := rfl
@[simp] theorem State.loadResponse_txLen (len : Word) (s : State) : (s.loadResponse len).txLen = len := rfl
@[simp] theorem State.loadResponse_sockValid (len : Word) (s : State) :
    (s.loadResponse len).sockValid = s.sockValid := rfl
@[simp] theorem State.loadResponse_initFailed (len : Word) (s : State) :
    (s.loadResponse len).initFailed = s.initFailed := rfl
@[simp] theorem State.loadResponse_svc (len : Word) (s : State) : (s.loadResponse len).svc = s.svc := rfl
@[simp] theorem State.loadResponse_savedEvent (len : Word) (s : State) :
    (s.loadResponse len).savedEvent = s.savedEvent := rfl
@[simp] theorem State.loadResponse_slot (len : Word) (s : State) : (s.loadResponse len).slot = s.slot := rfl
@[simp] theorem State.loadResponse_chipTrace (len : Word) (s : State) :
    (s.loadResponse len).chipTrace = s.chipTrace := rfl
@[simp] theorem State.loadResponse_pending (len : Word) (s : State) : (s.loadResponse len).pending = s.pending := rfl
@[simp] theorem State.loadResponse_din (len : Word) (s : State) : (s.loadResponse len).din = s.din := rfl
@[simp] theorem State.loadResponse_responses (len : Word) (s : State) :
    (s.loadResponse len).responses = s.responses := rfl
@[simp] theorem State.loadResponse_chip (len : Word) (s : State) : (s.loadResponse len).chip = s.chip := rfl
@[simp] theorem State.loadResponse_draws (len : Word) (s : State) : (s.loadResponse len).draws = s.draws := rfl
@[simp] theorem State.loadResponse_engine (len : Word) (s : State) : (s.loadResponse len).engine = s.engine := rfl
@[simp] theorem State.loadResponse_outsidePuts (len : Word) (s : State) :
    (s.loadResponse len).outsidePuts = s.outsidePuts := rfl
@[simp] theorem State.loadResponse_engineReads (len : Word) (s : State) :
    (s.loadResponse len).engineReads = s.engineReads := rfl
/-! The register map by space. -/

@[simp] theorem State.setBits_bits (s : State) (sp : BitSpace) (m : Memory 8) : (s.setBits sp m).bits sp = m := by
  cases sp <;> rfl

theorem State.setBits_bits_ne (s : State) {sp sp' : BitSpace} (m : Memory 8) (h : sp' ≠ sp) :
    (s.setBits sp m).bits sp' = s.bits sp' := by
  cases sp <;> cases sp' <;> first | rfl | exact absurd rfl h

@[simp] theorem State.setWords_words (s : State) (sp : WordSpace) (m : Memory 16) :
    (s.setWords sp m).words sp = m := by
  cases sp <;> rfl

theorem State.setWords_words_ne (s : State) {sp sp' : WordSpace} (m : Memory 16) (h : sp' ≠ sp) :
    (s.setWords sp m).words sp' = s.words sp' := by
  cases sp <;> cases sp' <;> first | rfl | exact absurd rfl h

@[simp] theorem State.setBits_words (s : State) (sp : BitSpace) (m : Memory 8) (sp' : WordSpace) :
    (s.setBits sp m).words sp' = s.words sp' := by
  cases sp <;> cases sp' <;> rfl

@[simp] theorem State.setWords_bits (s : State) (sp : WordSpace) (m : Memory 16) (sp' : BitSpace) :
    (s.setWords sp m).bits sp' = s.bits sp' := by
  cases sp <;> cases sp' <;> rfl

@[simp] theorem State.respond_bits (st : Status) (d : List Byte) (s : State) (sp : BitSpace) :
    (s.respond st d).bits sp = s.bits sp := by
  cases sp <;> rfl

@[simp] theorem State.respond_words (st : Status) (d : List Byte) (s : State) (sp : WordSpace) :
    (s.respond st d).words sp = s.words sp := by
  cases sp <;> rfl

/-- One interleaving point as one record: only the slot and the script of outside writes change (R63). -/
theorem State.outside_eq (s : State) :
    s.outside = { s with slot := slotAfter s.slot (s.outsidePuts.headD []), outsidePuts := s.outsidePuts.tail } := by
  obtain ⟨⟩ := s
  rename_i puts _
  cases puts <;> rfl

theorem State.outside_slot (s : State) : s.outside.slot = slotAfter s.slot (s.outsidePuts.headD []) := by
  rw [State.outside_eq]

/-! `setBits` -/

@[simp] theorem State.setBits_params (s : State) (sp : BitSpace) (m : Memory 8) : (s.setBits sp m).params = s.params := by cases sp <;> rfl
@[simp] theorem State.setBits_wordsIR (s : State) (sp : BitSpace) (m : Memory 8) : (s.setBits sp m).wordsIR = s.wordsIR := by cases sp <;> rfl
@[simp] theorem State.setBits_wordsHR (s : State) (sp : BitSpace) (m : Memory 8) : (s.setBits sp m).wordsHR = s.wordsHR := by cases sp <;> rfl
@[simp] theorem State.setBits_mode (s : State) (sp : BitSpace) (m : Memory 8) : (s.setBits sp m).mode = s.mode := by cases sp <;> rfl
@[simp] theorem State.setBits_netcfg (s : State) (sp : BitSpace) (m : Memory 8) : (s.setBits sp m).netcfg = s.netcfg := by cases sp <;> rfl
@[simp] theorem State.setBits_linkUp (s : State) (sp : BitSpace) (m : Memory 8) : (s.setBits sp m).linkUp = s.linkUp := by cases sp <;> rfl
@[simp] theorem State.setBits_sockState (s : State) (sp : BitSpace) (m : Memory 8) : (s.setBits sp m).sockState = s.sockState := by cases sp <;> rfl
@[simp] theorem State.setBits_connected (s : State) (sp : BitSpace) (m : Memory 8) : (s.setBits sp m).connected = s.connected := by cases sp <;> rfl
@[simp] theorem State.setBits_txEn (s : State) (sp : BitSpace) (m : Memory 8) : (s.setBits sp m).txEn = s.txEn := by cases sp <;> rfl
@[simp] theorem State.setBits_txSent (s : State) (sp : BitSpace) (m : Memory 8) : (s.setBits sp m).txSent = s.txSent := by cases sp <;> rfl
@[simp] theorem State.setBits_rxEn (s : State) (sp : BitSpace) (m : Memory 8) : (s.setBits sp m).rxEn = s.rxEn := by cases sp <;> rfl
@[simp] theorem State.setBits_rxRecv (s : State) (sp : BitSpace) (m : Memory 8) : (s.setBits sp m).rxRecv = s.rxRecv := by cases sp <;> rfl
@[simp] theorem State.setBits_rxBuf (s : State) (sp : BitSpace) (m : Memory 8) : (s.setBits sp m).rxBuf = s.rxBuf := by cases sp <;> rfl
@[simp] theorem State.setBits_rxLen (s : State) (sp : BitSpace) (m : Memory 8) : (s.setBits sp m).rxLen = s.rxLen := by cases sp <;> rfl
@[simp] theorem State.setBits_txBuf (s : State) (sp : BitSpace) (m : Memory 8) : (s.setBits sp m).txBuf = s.txBuf := by cases sp <;> rfl
@[simp] theorem State.setBits_txLen (s : State) (sp : BitSpace) (m : Memory 8) : (s.setBits sp m).txLen = s.txLen := by cases sp <;> rfl
@[simp] theorem State.setBits_sockValid (s : State) (sp : BitSpace) (m : Memory 8) : (s.setBits sp m).sockValid = s.sockValid := by cases sp <;> rfl
@[simp] theorem State.setBits_initFailed (s : State) (sp : BitSpace) (m : Memory 8) : (s.setBits sp m).initFailed = s.initFailed := by cases sp <;> rfl
@[simp] theorem State.setBits_svc (s : State) (sp : BitSpace) (m : Memory 8) : (s.setBits sp m).svc = s.svc := by cases sp <;> rfl
@[simp] theorem State.setBits_savedEvent (s : State) (sp : BitSpace) (m : Memory 8) : (s.setBits sp m).savedEvent = s.savedEvent := by cases sp <;> rfl
@[simp] theorem State.setBits_slot (s : State) (sp : BitSpace) (m : Memory 8) : (s.setBits sp m).slot = s.slot := by cases sp <;> rfl
@[simp] theorem State.setBits_chipTrace (s : State) (sp : BitSpace) (m : Memory 8) : (s.setBits sp m).chipTrace = s.chipTrace := by cases sp <;> rfl
@[simp] theorem State.setBits_pending (s : State) (sp : BitSpace) (m : Memory 8) : (s.setBits sp m).pending = s.pending := by cases sp <;> rfl
@[simp] theorem State.setBits_din (s : State) (sp : BitSpace) (m : Memory 8) : (s.setBits sp m).din = s.din := by cases sp <;> rfl
@[simp] theorem State.setBits_responses (s : State) (sp : BitSpace) (m : Memory 8) : (s.setBits sp m).responses = s.responses := by cases sp <;> rfl
@[simp] theorem State.setBits_chip (s : State) (sp : BitSpace) (m : Memory 8) : (s.setBits sp m).chip = s.chip := by cases sp <;> rfl
@[simp] theorem State.setBits_draws (s : State) (sp : BitSpace) (m : Memory 8) : (s.setBits sp m).draws = s.draws := by cases sp <;> rfl
@[simp] theorem State.setBits_engine (s : State) (sp : BitSpace) (m : Memory 8) : (s.setBits sp m).engine = s.engine := by cases sp <;> rfl
@[simp] theorem State.setBits_outsidePuts (s : State) (sp : BitSpace) (m : Memory 8) : (s.setBits sp m).outsidePuts = s.outsidePuts := by cases sp <;> rfl
@[simp] theorem State.setBits_engineReads (s : State) (sp : BitSpace) (m : Memory 8) : (s.setBits sp m).engineReads = s.engineReads := by cases sp <;> rfl

/-! `setWords` -/

@[simp] theorem State.setWords_params (s : State) (sp : WordSpace) (m : Memory 16) : (s.setWords sp m).params = s.params := by cases sp <;> rfl
@[simp] theorem State.setWords_bytesDI (s : State) (sp : WordSpace) (m : Memory 16) : (s.setWords sp m).bytesDI = s.bytesDI := by cases sp <;> rfl
@[simp] theorem State.setWords_bytesCO (s : State) (sp : WordSpace) (m : Memory 16) : (s.setWords sp m).bytesCO = s.bytesCO := by cases sp <;> rfl
@[simp] theorem State.setWords_mode (s : State) (sp : WordSpace) (m : Memory 16) : (s.setWords sp m).mode = s.mode := by cases sp <;> rfl
@[simp] theorem State.setWords_netcfg (s : State) (sp : WordSpace) (m : Memory 16) : (s.setWords sp m).netcfg = s.netcfg := by cases sp <;> rfl
@[simp] theorem State.setWords_linkUp (s : State) (sp : WordSpace) (m : Memory 16) : (s.setWords sp m).linkUp = s.linkUp := by cases sp <;> rfl
@[simp] theorem State.setWords_sockState (s : State) (sp : WordSpace) (m : Memory 16) : (s.setWords sp m).sockState = s.sockState := by cases sp <;> rfl
@[simp] theorem State.setWords_connected (s : State) (sp : WordSpace) (m : Memory 16) : (s.setWords sp m).connected = s.connected := by cases sp <;> rfl
@[simp] theorem State.setWords_txEn (s : State) (sp : WordSpace) (m : Memory 16) : (s.setWords sp m).txEn = s.txEn := by cases sp <;> rfl
@[simp] theorem State.setWords_txSent (s : State) (sp : WordSpace) (m : Memory 16) : (s.setWords sp m).txSent = s.txSent := by cases sp <;> rfl
@[simp] theorem State.setWords_rxEn (s : State) (sp : WordSpace) (m : Memory 16) : (s.setWords sp m).rxEn = s.rxEn := by cases sp <;> rfl
@[simp] theorem State.setWords_rxRecv (s : State) (sp : WordSpace) (m : Memory 16) : (s.setWords sp m).rxRecv = s.rxRecv := by cases sp <;> rfl
@[simp] theorem State.setWords_rxBuf (s : State) (sp : WordSpace) (m : Memory 16) : (s.setWords sp m).rxBuf = s.rxBuf := by cases sp <;> rfl
@[simp] theorem State.setWords_rxLen (s : State) (sp : WordSpace) (m : Memory 16) : (s.setWords sp m).rxLen = s.rxLen := by cases sp <;> rfl
@[simp] theorem State.setWords_txBuf (s : State) (sp : WordSpace) (m : Memory 16) : (s.setWords sp m).txBuf = s.txBuf := by cases sp <;> rfl
@[simp] theorem State.setWords_txLen (s : State) (sp : WordSpace) (m : Memory 16) : (s.setWords sp m).txLen = s.txLen := by cases sp <;> rfl
@[simp] theorem State.setWords_sockValid (s : State) (sp : WordSpace) (m : Memory 16) : (s.setWords sp m).sockValid = s.sockValid := by cases sp <;> rfl
@[simp] theorem State.setWords_initFailed (s : State) (sp : WordSpace) (m : Memory 16) : (s.setWords sp m).initFailed = s.initFailed := by cases sp <;> rfl
@[simp] theorem State.setWords_svc (s : State) (sp : WordSpace) (m : Memory 16) : (s.setWords sp m).svc = s.svc := by cases sp <;> rfl
@[simp] theorem State.setWords_savedEvent (s : State) (sp : WordSpace) (m : Memory 16) : (s.setWords sp m).savedEvent = s.savedEvent := by cases sp <;> rfl
@[simp] theorem State.setWords_slot (s : State) (sp : WordSpace) (m : Memory 16) : (s.setWords sp m).slot = s.slot := by cases sp <;> rfl
@[simp] theorem State.setWords_chipTrace (s : State) (sp : WordSpace) (m : Memory 16) : (s.setWords sp m).chipTrace = s.chipTrace := by cases sp <;> rfl
@[simp] theorem State.setWords_pending (s : State) (sp : WordSpace) (m : Memory 16) : (s.setWords sp m).pending = s.pending := by cases sp <;> rfl
@[simp] theorem State.setWords_din (s : State) (sp : WordSpace) (m : Memory 16) : (s.setWords sp m).din = s.din := by cases sp <;> rfl
@[simp] theorem State.setWords_responses (s : State) (sp : WordSpace) (m : Memory 16) : (s.setWords sp m).responses = s.responses := by cases sp <;> rfl
@[simp] theorem State.setWords_chip (s : State) (sp : WordSpace) (m : Memory 16) : (s.setWords sp m).chip = s.chip := by cases sp <;> rfl
@[simp] theorem State.setWords_draws (s : State) (sp : WordSpace) (m : Memory 16) : (s.setWords sp m).draws = s.draws := by cases sp <;> rfl
@[simp] theorem State.setWords_engine (s : State) (sp : WordSpace) (m : Memory 16) : (s.setWords sp m).engine = s.engine := by cases sp <;> rfl
@[simp] theorem State.setWords_outsidePuts (s : State) (sp : WordSpace) (m : Memory 16) : (s.setWords sp m).outsidePuts = s.outsidePuts := by cases sp <;> rfl
@[simp] theorem State.setWords_engineReads (s : State) (sp : WordSpace) (m : Memory 16) : (s.setWords sp m).engineReads = s.engineReads := by cases sp <;> rfl

end Sys2Proof.Machine
end

