-- ==== Sys2Proof/Laws/Envelope.lean ====
section
/-! SUPPORT. What each part of the request envelope leaves in each field (41_tcp_lifecycle R149, R151). -/

namespace Sys2Proof.Machine

/-! `openEnvelope` -/

@[simp] theorem State.openEnvelope_params (s : State) : (s.openEnvelope).params = s.params := s.outside_params
@[simp] theorem State.openEnvelope_bytesDI (s : State) : (s.openEnvelope).bytesDI = s.bytesDI := s.outside_bytesDI
@[simp] theorem State.openEnvelope_bytesCO (s : State) : (s.openEnvelope).bytesCO = s.bytesCO := s.outside_bytesCO
@[simp] theorem State.openEnvelope_wordsIR (s : State) : (s.openEnvelope).wordsIR = s.wordsIR := s.outside_wordsIR
@[simp] theorem State.openEnvelope_wordsHR (s : State) : (s.openEnvelope).wordsHR = s.wordsHR := s.outside_wordsHR
@[simp] theorem State.openEnvelope_mode (s : State) : (s.openEnvelope).mode = s.mode := s.outside_mode
@[simp] theorem State.openEnvelope_netcfg (s : State) : (s.openEnvelope).netcfg = s.netcfg := s.outside_netcfg
@[simp] theorem State.openEnvelope_linkUp (s : State) : (s.openEnvelope).linkUp = s.linkUp := s.outside_linkUp
@[simp] theorem State.openEnvelope_sockState (s : State) :
    (s.openEnvelope).sockState = s.sockState := s.outside_sockState
@[simp] theorem State.openEnvelope_connected (s : State) :
    (s.openEnvelope).connected = s.connected := s.outside_connected
@[simp] theorem State.openEnvelope_txEn (s : State) : (s.openEnvelope).txEn = s.txEn := s.outside_txEn
@[simp] theorem State.openEnvelope_txSent (s : State) : (s.openEnvelope).txSent = false := rfl
@[simp] theorem State.openEnvelope_rxEn (s : State) : (s.openEnvelope).rxEn = s.rxEn := s.outside_rxEn
@[simp] theorem State.openEnvelope_rxRecv (s : State) : (s.openEnvelope).rxRecv = s.rxRecv := s.outside_rxRecv
@[simp] theorem State.openEnvelope_rxBuf (s : State) : (s.openEnvelope).rxBuf = s.rxBuf := s.outside_rxBuf
@[simp] theorem State.openEnvelope_rxLen (s : State) : (s.openEnvelope).rxLen = s.rxLen := s.outside_rxLen
@[simp] theorem State.openEnvelope_txBuf (s : State) : (s.openEnvelope).txBuf = s.txBuf := s.outside_txBuf
@[simp] theorem State.openEnvelope_txLen (s : State) : (s.openEnvelope).txLen = s.txLen := s.outside_txLen
@[simp] theorem State.openEnvelope_sockValid (s : State) :
    (s.openEnvelope).sockValid = s.sockValid := s.outside_sockValid
@[simp] theorem State.openEnvelope_initFailed (s : State) :
    (s.openEnvelope).initFailed = s.initFailed := s.outside_initFailed
@[simp] theorem State.openEnvelope_svc (s : State) : (s.openEnvelope).svc = true := rfl
@[simp] theorem State.openEnvelope_savedEvent (s : State) : (s.openEnvelope).savedEvent = s.outside.slot := rfl
@[simp] theorem State.openEnvelope_slot (s : State) : (s.openEnvelope).slot = s.outside.slot := rfl
@[simp] theorem State.openEnvelope_chipTrace (s : State) :
    (s.openEnvelope).chipTrace = s.chipTrace := s.outside_chipTrace
@[simp] theorem State.openEnvelope_pending (s : State) : (s.openEnvelope).pending = s.pending := s.outside_pending
@[simp] theorem State.openEnvelope_din (s : State) : (s.openEnvelope).din = s.din := s.outside_din
@[simp] theorem State.openEnvelope_responses (s : State) :
    (s.openEnvelope).responses = s.responses := s.outside_responses
@[simp] theorem State.openEnvelope_chip (s : State) : (s.openEnvelope).chip = s.chip := s.outside_chip
@[simp] theorem State.openEnvelope_draws (s : State) : (s.openEnvelope).draws = s.draws := s.outside_draws
@[simp] theorem State.openEnvelope_engine (s : State) : (s.openEnvelope).engine = s.engine := s.outside_engine
@[simp] theorem State.openEnvelope_outsidePuts (s : State) :
    (s.openEnvelope).outsidePuts = s.outsidePuts.tail := s.outside_outsidePuts
@[simp] theorem State.openEnvelope_engineReads (s : State) :
    (s.openEnvelope).engineReads = s.engineReads := s.outside_engineReads

/-! `receive` -/

@[simp] theorem State.receive_params (a : ChipAnswers) (s : State) : (s.receive a).params = s.params := rfl
@[simp] theorem State.receive_bytesDI (a : ChipAnswers) (s : State) : (s.receive a).bytesDI = s.bytesDI := rfl
@[simp] theorem State.receive_bytesCO (a : ChipAnswers) (s : State) : (s.receive a).bytesCO = s.bytesCO := rfl
@[simp] theorem State.receive_wordsIR (a : ChipAnswers) (s : State) : (s.receive a).wordsIR = s.wordsIR := rfl
@[simp] theorem State.receive_wordsHR (a : ChipAnswers) (s : State) : (s.receive a).wordsHR = s.wordsHR := rfl
@[simp] theorem State.receive_mode (a : ChipAnswers) (s : State) : (s.receive a).mode = s.mode := rfl
@[simp] theorem State.receive_netcfg (a : ChipAnswers) (s : State) : (s.receive a).netcfg = s.netcfg := rfl
@[simp] theorem State.receive_linkUp (a : ChipAnswers) (s : State) : (s.receive a).linkUp = s.linkUp := rfl
@[simp] theorem State.receive_sockState (a : ChipAnswers) (s : State) : (s.receive a).sockState = s.sockState := rfl
@[simp] theorem State.receive_connected (a : ChipAnswers) (s : State) : (s.receive a).connected = s.connected := rfl
@[simp] theorem State.receive_txEn (a : ChipAnswers) (s : State) : (s.receive a).txEn = s.txEn := rfl
@[simp] theorem State.receive_txSent (a : ChipAnswers) (s : State) : (s.receive a).txSent = s.txSent := rfl
@[simp] theorem State.receive_rxEn (a : ChipAnswers) (s : State) : (s.receive a).rxEn = s.rxEn := rfl
@[simp] theorem State.receive_rxRecv (a : ChipAnswers) (s : State) : (s.receive a).rxRecv = true := rfl
@[simp] theorem State.receive_rxBuf (a : ChipAnswers) (s : State) :
    (s.receive a).rxBuf = Memory.writeBytes s.rxBuf (recvBytes a s.draws (min a.rxReady.toNat s.params.rxBufSize)) := rfl
@[simp] theorem State.receive_rxLen (a : ChipAnswers) (s : State) :
    (s.receive a).rxLen = BitVec.ofNat 16 (min a.rxReady.toNat s.params.rxBufSize) := rfl
@[simp] theorem State.receive_txBuf (a : ChipAnswers) (s : State) : (s.receive a).txBuf = s.txBuf := rfl
@[simp] theorem State.receive_txLen (a : ChipAnswers) (s : State) : (s.receive a).txLen = s.txLen := rfl
@[simp] theorem State.receive_sockValid (a : ChipAnswers) (s : State) : (s.receive a).sockValid = s.sockValid := rfl
@[simp] theorem State.receive_initFailed (a : ChipAnswers) (s : State) :
    (s.receive a).initFailed = s.initFailed := rfl
@[simp] theorem State.receive_svc (a : ChipAnswers) (s : State) : (s.receive a).svc = s.svc := rfl
@[simp] theorem State.receive_savedEvent (a : ChipAnswers) (s : State) :
    (s.receive a).savedEvent = s.savedEvent := rfl
@[simp] theorem State.receive_slot (a : ChipAnswers) (s : State) : (s.receive a).slot = s.slot := rfl
@[simp] theorem State.receive_chipTrace (a : ChipAnswers) (s : State) :
    (s.receive a).chipTrace = s.chipTrace ++ [.recv (min a.rxReady.toNat s.params.rxBufSize)] := rfl
@[simp] theorem State.receive_pending (a : ChipAnswers) (s : State) : (s.receive a).pending = s.pending := rfl
@[simp] theorem State.receive_din (a : ChipAnswers) (s : State) : (s.receive a).din = s.din := rfl
@[simp] theorem State.receive_responses (a : ChipAnswers) (s : State) : (s.receive a).responses = s.responses := rfl
@[simp] theorem State.receive_chip (a : ChipAnswers) (s : State) : (s.receive a).chip = s.chip := rfl
@[simp] theorem State.receive_draws (a : ChipAnswers) (s : State) : (s.receive a).draws = s.draws := rfl
@[simp] theorem State.receive_engine (a : ChipAnswers) (s : State) : (s.receive a).engine = s.engine := rfl
@[simp] theorem State.receive_outsidePuts (a : ChipAnswers) (s : State) :
    (s.receive a).outsidePuts = s.outsidePuts := rfl
@[simp] theorem State.receive_engineReads (a : ChipAnswers) (s : State) :
    (s.receive a).engineReads = s.engineReads := rfl

/-! `postFrame` -/

@[simp] theorem State.postFrame_params (s : State) : (s.postFrame).params = s.params := s.outside_params
@[simp] theorem State.postFrame_bytesDI (s : State) : (s.postFrame).bytesDI = s.bytesDI := s.outside_bytesDI
@[simp] theorem State.postFrame_bytesCO (s : State) : (s.postFrame).bytesCO = s.bytesCO := s.outside_bytesCO
@[simp] theorem State.postFrame_wordsIR (s : State) : (s.postFrame).wordsIR = s.wordsIR := s.outside_wordsIR
@[simp] theorem State.postFrame_wordsHR (s : State) : (s.postFrame).wordsHR = s.wordsHR := s.outside_wordsHR
@[simp] theorem State.postFrame_mode (s : State) : (s.postFrame).mode = .tcp := rfl
@[simp] theorem State.postFrame_netcfg (s : State) : (s.postFrame).netcfg = s.netcfg := s.outside_netcfg
@[simp] theorem State.postFrame_linkUp (s : State) : (s.postFrame).linkUp = s.linkUp := s.outside_linkUp
@[simp] theorem State.postFrame_sockState (s : State) : (s.postFrame).sockState = s.sockState := s.outside_sockState
@[simp] theorem State.postFrame_connected (s : State) : (s.postFrame).connected = s.connected := s.outside_connected
@[simp] theorem State.postFrame_txEn (s : State) : (s.postFrame).txEn = s.txEn := s.outside_txEn
@[simp] theorem State.postFrame_txSent (s : State) : (s.postFrame).txSent = s.txSent := s.outside_txSent
@[simp] theorem State.postFrame_rxEn (s : State) : (s.postFrame).rxEn = s.rxEn := s.outside_rxEn
@[simp] theorem State.postFrame_rxRecv (s : State) : (s.postFrame).rxRecv = s.rxRecv := s.outside_rxRecv
@[simp] theorem State.postFrame_rxBuf (s : State) : (s.postFrame).rxBuf = s.rxBuf := s.outside_rxBuf
@[simp] theorem State.postFrame_rxLen (s : State) : (s.postFrame).rxLen = s.rxLen := s.outside_rxLen
@[simp] theorem State.postFrame_txBuf (s : State) : (s.postFrame).txBuf = s.txBuf := s.outside_txBuf
@[simp] theorem State.postFrame_txLen (s : State) : (s.postFrame).txLen = s.txLen := s.outside_txLen
@[simp] theorem State.postFrame_sockValid (s : State) : (s.postFrame).sockValid = s.sockValid := s.outside_sockValid
@[simp] theorem State.postFrame_initFailed (s : State) :
    (s.postFrame).initFailed = s.initFailed := s.outside_initFailed
@[simp] theorem State.postFrame_svc (s : State) : (s.postFrame).svc = s.svc := s.outside_svc
@[simp] theorem State.postFrame_savedEvent (s : State) :
    (s.postFrame).savedEvent = s.savedEvent := s.outside_savedEvent
@[simp] theorem State.postFrame_slot (s : State) : (s.postFrame).slot = some .frameReceived := rfl
@[simp] theorem State.postFrame_chipTrace (s : State) : (s.postFrame).chipTrace = s.chipTrace := s.outside_chipTrace
@[simp] theorem State.postFrame_pending (s : State) : (s.postFrame).pending = s.pending := s.outside_pending
@[simp] theorem State.postFrame_din (s : State) : (s.postFrame).din = s.din := s.outside_din
@[simp] theorem State.postFrame_responses (s : State) : (s.postFrame).responses = s.responses := s.outside_responses
@[simp] theorem State.postFrame_chip (s : State) : (s.postFrame).chip = s.chip := s.outside_chip
@[simp] theorem State.postFrame_draws (s : State) : (s.postFrame).draws = s.draws := s.outside_draws
@[simp] theorem State.postFrame_engine (s : State) : (s.postFrame).engine = s.engine := s.outside_engine
@[simp] theorem State.postFrame_outsidePuts (s : State) :
    (s.postFrame).outsidePuts = s.outsidePuts.tail := s.outside_outsidePuts
@[simp] theorem State.postFrame_engineReads (s : State) :
    (s.postFrame).engineReads = s.engineReads := s.outside_engineReads

/-! `closeEnvelope` -/

@[simp] theorem State.closeEnvelope_params (s : State) : (s.closeEnvelope).params = s.params := s.outside_params
@[simp] theorem State.closeEnvelope_bytesDI (s : State) : (s.closeEnvelope).bytesDI = s.bytesDI := s.outside_bytesDI
@[simp] theorem State.closeEnvelope_bytesCO (s : State) : (s.closeEnvelope).bytesCO = s.bytesCO := s.outside_bytesCO
@[simp] theorem State.closeEnvelope_wordsIR (s : State) : (s.closeEnvelope).wordsIR = s.wordsIR := s.outside_wordsIR
@[simp] theorem State.closeEnvelope_wordsHR (s : State) : (s.closeEnvelope).wordsHR = s.wordsHR := s.outside_wordsHR
@[simp] theorem State.closeEnvelope_mode (s : State) : (s.closeEnvelope).mode = .rtu := rfl
@[simp] theorem State.closeEnvelope_netcfg (s : State) : (s.closeEnvelope).netcfg = s.netcfg := s.outside_netcfg
@[simp] theorem State.closeEnvelope_linkUp (s : State) : (s.closeEnvelope).linkUp = s.linkUp := s.outside_linkUp
@[simp] theorem State.closeEnvelope_sockState (s : State) :
    (s.closeEnvelope).sockState = s.sockState := s.outside_sockState
@[simp] theorem State.closeEnvelope_connected (s : State) :
    (s.closeEnvelope).connected = s.connected := s.outside_connected
@[simp] theorem State.closeEnvelope_txEn (s : State) : (s.closeEnvelope).txEn = s.txEn := s.outside_txEn
@[simp] theorem State.closeEnvelope_txSent (s : State) : (s.closeEnvelope).txSent = s.txSent := s.outside_txSent
@[simp] theorem State.closeEnvelope_rxEn (s : State) : (s.closeEnvelope).rxEn = s.rxEn := s.outside_rxEn
@[simp] theorem State.closeEnvelope_rxRecv (s : State) : (s.closeEnvelope).rxRecv = s.rxRecv := s.outside_rxRecv
@[simp] theorem State.closeEnvelope_rxBuf (s : State) : (s.closeEnvelope).rxBuf = s.rxBuf := s.outside_rxBuf
@[simp] theorem State.closeEnvelope_rxLen (s : State) : (s.closeEnvelope).rxLen = s.rxLen := s.outside_rxLen
@[simp] theorem State.closeEnvelope_txBuf (s : State) : (s.closeEnvelope).txBuf = s.txBuf := s.outside_txBuf
@[simp] theorem State.closeEnvelope_txLen (s : State) : (s.closeEnvelope).txLen = s.txLen := s.outside_txLen
@[simp] theorem State.closeEnvelope_sockValid (s : State) :
    (s.closeEnvelope).sockValid = s.sockValid := s.outside_sockValid
@[simp] theorem State.closeEnvelope_initFailed (s : State) :
    (s.closeEnvelope).initFailed = s.initFailed := s.outside_initFailed
@[simp] theorem State.closeEnvelope_svc (s : State) : (s.closeEnvelope).svc = false := rfl
@[simp] theorem State.closeEnvelope_savedEvent (s : State) :
    (s.closeEnvelope).savedEvent = s.savedEvent := s.outside_savedEvent
@[simp] theorem State.closeEnvelope_slot (s : State) : (s.closeEnvelope).slot = s.savedEvent := rfl
@[simp] theorem State.closeEnvelope_chipTrace (s : State) :
    (s.closeEnvelope).chipTrace = s.chipTrace := s.outside_chipTrace
@[simp] theorem State.closeEnvelope_pending (s : State) : (s.closeEnvelope).pending = s.pending := s.outside_pending
@[simp] theorem State.closeEnvelope_din (s : State) : (s.closeEnvelope).din = s.din := s.outside_din
@[simp] theorem State.closeEnvelope_responses (s : State) :
    (s.closeEnvelope).responses = s.responses := s.outside_responses
@[simp] theorem State.closeEnvelope_chip (s : State) : (s.closeEnvelope).chip = s.chip := s.outside_chip
@[simp] theorem State.closeEnvelope_draws (s : State) : (s.closeEnvelope).draws = s.draws := s.outside_draws
@[simp] theorem State.closeEnvelope_engine (s : State) : (s.closeEnvelope).engine = s.engine := s.outside_engine
@[simp] theorem State.closeEnvelope_outsidePuts (s : State) :
    (s.closeEnvelope).outsidePuts = s.outsidePuts.tail := s.outside_outsidePuts
@[simp] theorem State.closeEnvelope_engineReads (s : State) :
    (s.closeEnvelope).engineReads = s.engineReads := s.outside_engineReads
/-! `sendResponse` -/

@[simp] theorem State.sendResponse_params (s : State) : s.sendResponse.params = s.params := by
  unfold State.sendResponse; split <;> rfl
@[simp] theorem State.sendResponse_bytesDI (s : State) : s.sendResponse.bytesDI = s.bytesDI := by
  unfold State.sendResponse; split <;> rfl
@[simp] theorem State.sendResponse_bytesCO (s : State) : s.sendResponse.bytesCO = s.bytesCO := by
  unfold State.sendResponse; split <;> rfl
@[simp] theorem State.sendResponse_wordsIR (s : State) : s.sendResponse.wordsIR = s.wordsIR := by
  unfold State.sendResponse; split <;> rfl
@[simp] theorem State.sendResponse_wordsHR (s : State) : s.sendResponse.wordsHR = s.wordsHR := by
  unfold State.sendResponse; split <;> rfl
@[simp] theorem State.sendResponse_mode (s : State) : s.sendResponse.mode = s.mode := by
  unfold State.sendResponse; split <;> rfl
@[simp] theorem State.sendResponse_netcfg (s : State) : s.sendResponse.netcfg = s.netcfg := by
  unfold State.sendResponse; split <;> rfl
@[simp] theorem State.sendResponse_linkUp (s : State) : s.sendResponse.linkUp = s.linkUp := by
  unfold State.sendResponse; split <;> rfl
@[simp] theorem State.sendResponse_sockState (s : State) : s.sendResponse.sockState = s.sockState := by
  unfold State.sendResponse; split <;> rfl
@[simp] theorem State.sendResponse_connected (s : State) : s.sendResponse.connected = s.connected := by
  unfold State.sendResponse; split <;> rfl
@[simp] theorem State.sendResponse_rxEn (s : State) : s.sendResponse.rxEn = s.rxEn := by
  unfold State.sendResponse; split <;> rfl
@[simp] theorem State.sendResponse_rxRecv (s : State) : s.sendResponse.rxRecv = s.rxRecv := by
  unfold State.sendResponse; split <;> rfl
@[simp] theorem State.sendResponse_rxBuf (s : State) : s.sendResponse.rxBuf = s.rxBuf := by
  unfold State.sendResponse; split <;> rfl
@[simp] theorem State.sendResponse_rxLen (s : State) : s.sendResponse.rxLen = s.rxLen := by
  unfold State.sendResponse; split <;> rfl
@[simp] theorem State.sendResponse_txBuf (s : State) : s.sendResponse.txBuf = s.txBuf := by
  unfold State.sendResponse; split <;> rfl
@[simp] theorem State.sendResponse_txLen (s : State) : s.sendResponse.txLen = s.txLen := by
  unfold State.sendResponse; split <;> rfl
@[simp] theorem State.sendResponse_sockValid (s : State) : s.sendResponse.sockValid = s.sockValid := by
  unfold State.sendResponse; split <;> rfl
@[simp] theorem State.sendResponse_initFailed (s : State) : s.sendResponse.initFailed = s.initFailed := by
  unfold State.sendResponse; split <;> rfl
@[simp] theorem State.sendResponse_svc (s : State) : s.sendResponse.svc = s.svc := by
  unfold State.sendResponse; split <;> rfl
@[simp] theorem State.sendResponse_savedEvent (s : State) : s.sendResponse.savedEvent = s.savedEvent := by
  unfold State.sendResponse; split <;> rfl
@[simp] theorem State.sendResponse_slot (s : State) : s.sendResponse.slot = s.slot := by
  unfold State.sendResponse; split <;> rfl
@[simp] theorem State.sendResponse_pending (s : State) : s.sendResponse.pending = s.pending := by
  unfold State.sendResponse; split <;> rfl
@[simp] theorem State.sendResponse_din (s : State) : s.sendResponse.din = s.din := by
  unfold State.sendResponse; split <;> rfl
@[simp] theorem State.sendResponse_responses (s : State) : s.sendResponse.responses = s.responses := by
  unfold State.sendResponse; split <;> rfl
@[simp] theorem State.sendResponse_chip (s : State) : s.sendResponse.chip = s.chip := by
  unfold State.sendResponse; split <;> rfl
@[simp] theorem State.sendResponse_draws (s : State) : s.sendResponse.draws = s.draws := by
  unfold State.sendResponse; split <;> rfl
@[simp] theorem State.sendResponse_engine (s : State) : s.sendResponse.engine = s.engine := by
  unfold State.sendResponse; split <;> rfl
@[simp] theorem State.sendResponse_outsidePuts (s : State) : s.sendResponse.outsidePuts = s.outsidePuts := by
  unfold State.sendResponse; split <;> rfl
@[simp] theorem State.sendResponse_engineReads (s : State) : s.sendResponse.engineReads = s.engineReads := by
  unfold State.sendResponse; split <;> rfl

@[simp] theorem State.sendResponse_txEn (s : State) : s.sendResponse.txEn = false := by
  unfold State.sendResponse; split <;> simp_all

@[simp] theorem State.sendResponse_txSent (s : State) : s.sendResponse.txSent = (s.txEn || s.txSent) := by
  unfold State.sendResponse; split <;> simp_all

@[simp] theorem State.sendResponse_chipTrace (s : State) :
    s.sendResponse.chipTrace =
      s.chipTrace ++ (if s.txEn then [.send (Memory.readBytes s.txBuf s.txLen.toNat)] else []) := by
  unfold State.sendResponse; split <;> simp_all

/-! What the two phases leave as a whole (R149, R151, R157). -/

@[simp] theorem phaseA_mode (a : ChipAnswers) (s : State) : (phaseA a s).mode = .tcp := rfl
@[simp] theorem phaseA_svc (a : ChipAnswers) (s : State) : (phaseA a s).svc = true := by
  simp [phaseA, State.postFrame, State.evPut]
@[simp] theorem phaseA_responses (a : ChipAnswers) (s : State) : (phaseA a s).responses = s.responses := by
  simp [phaseA, State.postFrame, State.evPut]
@[simp] theorem phaseB_mode (s : State) : (phaseB s).mode = .rtu := rfl
@[simp] theorem phaseB_svc (s : State) : (phaseB s).svc = false := rfl
@[simp] theorem phaseB_responses (s : State) : (phaseB s).responses = s.responses := by simp [phaseB]

end Sys2Proof.Machine
end

