-- ==== Sys2Proof/Laws/Engine.lean ====
section
/-! SUPPORT. What the engine's transaction can do (41_tcp_lifecycle R150): the frame of one action, and the
induction over a transaction, once. -/

namespace Sys2Proof.Machine

@[simp] theorem engineRun_nil (s : State) : engineRun [] s = s := rfl

@[simp] theorem engineRun_cons (op : EngineOp) (ops : List EngineOp) (s : State) :
    engineRun (op :: ops) s = engineRun ops (engineAction op s) := rfl

/-- The induction over a transaction: what every action keeps, the transaction keeps. -/
theorem engineRun_induction {P : State → Prop} (ops : List EngineOp) (s : State)
    (h : ∀ op ∈ ops, ∀ t, P t → P (engineAction op t)) (hs : P s) : P (engineRun ops s) := by
  induction ops generalizing s with
  | nil => exact hs
  | cons op ops ih =>
    exact ih _ (fun op' h' => h op' (List.mem_cons_of_mem _ h')) (h op List.mem_cons_self _ hs)

/-- The fields the engine cannot write inside an envelope (R43, R150). -/
structure EngineFrame (s t : State) : Prop where
  params     : t.params = s.params
  mode       : t.mode = s.mode
  netcfg     : t.netcfg = s.netcfg
  linkUp     : t.linkUp = s.linkUp
  sockState  : t.sockState = s.sockState
  connected  : t.connected = s.connected
  txSent     : t.txSent = s.txSent
  rxEn       : t.rxEn = s.rxEn
  rxBuf      : t.rxBuf = s.rxBuf
  rxLen      : t.rxLen = s.rxLen
  sockValid  : t.sockValid = s.sockValid
  initFailed : t.initFailed = s.initFailed
  svc        : t.svc = s.svc
  savedEvent : t.savedEvent = s.savedEvent
  chipTrace  : t.chipTrace = s.chipTrace
  pending    : t.pending = s.pending
  chip       : t.chip = s.chip
  draws      : t.draws = s.draws
  engine     : t.engine = s.engine

theorem EngineFrame.refl (s : State) : EngineFrame s s := by constructor <;> rfl

theorem EngineFrame.trans {s t u : State} (h : EngineFrame s t) (h' : EngineFrame t u) : EngineFrame s u where
  params := h'.params.trans h.params
  mode := h'.mode.trans h.mode
  netcfg := h'.netcfg.trans h.netcfg
  linkUp := h'.linkUp.trans h.linkUp
  sockState := h'.sockState.trans h.sockState
  connected := h'.connected.trans h.connected
  txSent := h'.txSent.trans h.txSent
  rxEn := h'.rxEn.trans h.rxEn
  rxBuf := h'.rxBuf.trans h.rxBuf
  rxLen := h'.rxLen.trans h.rxLen
  sockValid := h'.sockValid.trans h.sockValid
  initFailed := h'.initFailed.trans h.initFailed
  svc := h'.svc.trans h.svc
  savedEvent := h'.savedEvent.trans h.savedEvent
  chipTrace := h'.chipTrace.trans h.chipTrace
  pending := h'.pending.trans h.pending
  chip := h'.chip.trans h.chip
  draws := h'.draws.trans h.draws
  engine := h'.engine.trans h.engine

theorem EngineFrame.respond (st : Status) (d : List Byte) (s : State) : EngineFrame s (s.respond st d) := by
  constructor <;> rfl

theorem EngineFrame.reject (st : Status) (s : State) : EngineFrame s (s.reject st) := .respond st [] s

theorem EngineFrame.accept (c : Command) (s : State) : EngineFrame s (s.accept c) := by constructor <;> rfl

theorem EngineFrame.outside (s : State) : EngineFrame s s.outside := by constructor <;> simp

theorem EngineFrame.evPut (v : Option Event) (s : State) : EngineFrame s (s.evPut v) := by constructor <;> rfl

theorem EngineFrame.setBits (sp : BitSpace) (m : Memory 8) (s : State) : EngineFrame s (s.setBits sp m) := by
  constructor <;> simp

theorem EngineFrame.setWords (sp : WordSpace) (m : Memory 16) (s : State) : EngineFrame s (s.setWords sp m) := by
  constructor <;> simp

theorem EngineFrame.readBits (sp : BitSpace) (a n : Word) (s : State) : EngineFrame s (readBits sp a n s) := by
  unfold Machine.readBits; split <;> exact .respond ..

theorem EngineFrame.readWords (sp : WordSpace) (a n : Word) (s : State) : EngineFrame s (readWords sp a n s) := by
  unfold Machine.readWords; split <;> exact .respond ..

theorem EngineFrame.writeBits (sp : BitSpace) (a n : Word) (s : State) : EngineFrame s (writeBits sp a n s) := by
  unfold Machine.writeBits
  split
  · exact .reject ..
  · split
    · exact .reject ..
    · exact (EngineFrame.setBits ..).trans (.respond ..)

theorem EngineFrame.writeWords (sp : WordSpace) (a n : Word) (s : State) : EngineFrame s (writeWords sp a n s) := by
  unfold Machine.writeWords
  split
  · exact .reject ..
  · split
    · exact .reject ..
    · exact (EngineFrame.setWords ..).trans (.respond ..)

theorem EngineFrame.tcpGetReq (s : State) : EngineFrame s (tcpGetReq s) := by
  unfold Machine.tcpGetReq; split <;> constructor <;> rfl

theorem EngineFrame.tcpSetResp (len : Word) (s : State) : EngineFrame s (tcpSetResp len s) := by
  unfold Machine.tcpSetResp
  split
  · split
    · exact .reject ..
    · split <;> constructor <;> rfl
  · exact .reject ..

/-- A command of the engine keeps the frame. -/
theorem EngineFrame.nestedCommand (i : Instr) (s : State) : EngineFrame s (nestedCommand i s) := by
  cases i with
  | regRdDI a n => exact .readBits .di a n s
  | regRdCO a n => exact .readBits .co a n s
  | regRdIR a n => exact .readWords .ir a n s
  | regRdHR a n => exact .readWords .hr a n s
  | regWrDI a n => exact .writeBits .di a n s
  | regWrCO a n => exact .writeBits .co a n s
  | regWrIR a n => exact .writeWords .ir a n s
  | regWrHR a n => exact .writeWords .hr a n s
  | tcpPoll => exact .reject .illegalCommand s
  | tcpGetReq => exact .tcpGetReq s
  | tcpSetResp len => exact .tcpSetResp len s
  | statRd => exact .respond .ok (snapshot s) s

theorem EngineFrame.nestedWord (c : Command) (s : State) : EngineFrame s (nestedWord c s) := by
  unfold Machine.nestedWord
  split
  · exact (EngineFrame.accept c s).trans (.reject ..)
  · exact (EngineFrame.accept c s).trans (.nestedCommand ..)

/-- One action of the engine keeps the frame. -/
theorem EngineFrame.engineAction (op : EngineOp) (s : State) : EngineFrame s (engineAction op s) := by
  refine (EngineFrame.outside s).trans ?_
  cases op with
  | command c => exact .nestedWord c _
  | evRead => constructor <;> rfl
  | evPut v => exact .evPut v _

/-- A whole transaction keeps the frame. -/
theorem EngineFrame.engineRun (ops : List EngineOp) (s : State) : EngineFrame s (engineRun ops s) :=
  engineRun_induction (P := EngineFrame s) ops s (fun op _ t h => h.trans (.engineAction op t)) (.refl s)

/-- A command only adds a response. -/
theorem nestedCommand_responses (i : Instr) (s : State) :
    ∃ r, (nestedCommand i s).responses = s.responses ++ [r] := by
  cases i with
  | regRdDI a n => simp only [nestedCommand, regRdDI, readBits]; split <;> exact ⟨_, rfl⟩
  | regRdCO a n => simp only [nestedCommand, regRdCO, readBits]; split <;> exact ⟨_, rfl⟩
  | regRdIR a n => simp only [nestedCommand, regRdIR, readWords]; split <;> exact ⟨_, rfl⟩
  | regRdHR a n => simp only [nestedCommand, regRdHR, readWords]; split <;> exact ⟨_, rfl⟩
  | regWrDI a n =>
    simp only [nestedCommand, regWrDI, writeBits]
    split
    · exact ⟨_, rfl⟩
    · split <;> exact ⟨_, rfl⟩
  | regWrCO a n =>
    simp only [nestedCommand, regWrCO, writeBits]
    split
    · exact ⟨_, rfl⟩
    · split <;> exact ⟨_, rfl⟩
  | regWrIR a n =>
    simp only [nestedCommand, regWrIR, writeWords]
    split
    · exact ⟨_, rfl⟩
    · split <;> exact ⟨_, rfl⟩
  | regWrHR a n =>
    simp only [nestedCommand, regWrHR, writeWords]
    split
    · exact ⟨_, rfl⟩
    · split <;> exact ⟨_, rfl⟩
  | tcpPoll => exact ⟨_, rfl⟩
  | tcpGetReq => simp only [nestedCommand, tcpGetReq]; split <;> exact ⟨_, rfl⟩
  | tcpSetResp len =>
    simp only [nestedCommand, tcpSetResp]
    split
    · split
      · exact ⟨_, rfl⟩
      · split <;> exact ⟨_, rfl⟩
    · exact ⟨_, rfl⟩
  | statRd => exact ⟨_, rfl⟩

/-- A reserved word of the engine is ILLEGAL_COMMAND and nothing else (R77). -/
theorem nestedWord_reserved {c : Command} (h : ∀ i, decode c.word ≠ .ok i) (s : State) :
    nestedWord c s = (s.accept c).reject .illegalCommand := by
  unfold nestedWord
  split
  · rfl
  · exact absurd ‹_› (h _)

/-- An action of the engine keeps every earlier response. -/
theorem engineAction_responses (op : EngineOp) (s : State) :
    ∃ more, (engineAction op s).responses = s.responses ++ more := by
  cases op with
  | command c =>
    simp only [engineAction, nestedWord]
    split
    · exact ⟨_, by simp [State.reject, State.respond, State.accept]; rfl⟩
    · obtain ⟨r, h⟩ := nestedCommand_responses ‹_› (s.outside.accept c)
      exact ⟨[r], by rw [h]; simp [State.accept]⟩
  | evRead => exact ⟨[], by simp [engineAction]⟩
  | evPut v => exact ⟨[], by simp [engineAction, State.evPut]⟩

/-- A transaction keeps every earlier response. -/
theorem engineRun_responses (ops : List EngineOp) (s : State) :
    ∃ more, (engineRun ops s).responses = s.responses ++ more :=
  engineRun_induction (P := fun t => ∃ more, t.responses = s.responses ++ more) ops s
    (fun op _ t ⟨more, h⟩ => by
      obtain ⟨more', h'⟩ := engineAction_responses op t
      exact ⟨more ++ more', by rw [h', h, List.append_assoc]⟩)
    ⟨[], (List.append_nil _).symm⟩

end Sys2Proof.Machine
end

