-- ==== Sys2Proof/Laws/PerInstr.lean ====
section
/-! SUPPORT. One law per command, as syntax: the command's word belongs to the row of the opcode map that carries its
mnemonic (30_encoding R75). -/

namespace Sys2Proof.Laws.TableRow

/-- The word of a command agrees, on the mask, with the row of its mnemonic (R75). -/
def Statement (i : Instr) : Prop :=
  ∃ r ∈ opcodeTable, r.mnemonic = i.mnemonic ∧ encode i &&& r.mask = r.pattern

/-- A word with ADDR and CNT free, masked as REG.* rows are. -/
theorem mask_reg (low addr cnt : Word) :
    assemble low addr cnt &&& 0xFFFF00000000FFFF#64 = assemble low 0#16 0#16 := by
  have hm : (0xFFFF00000000FFFF#64 : BitVec 64) = 0xFFFF#16 ++ 0#16 ++ 0#16 ++ 0xFFFF#16 := by decide
  have h : assemble low addr cnt &&& 0xFFFF00000000FFFF#64 =
      (0#16 ++ cnt ++ addr ++ low : BitVec (16 + 16 + 16 + 16)) &&& (0xFFFF#16 ++ 0#16 ++ 0#16 ++ 0xFFFF#16) := by
    rw [hm]; rfl
  rw [h, BitVec.and_append, BitVec.and_append, BitVec.and_append]
  have h1 : low &&& 0xFFFF#16 = low := BitVec.and_allOnes
  rw [h1, BitVec.and_zero, BitVec.and_zero, BitVec.zero_and]
  rfl

/-- A word with ADDR free, masked as the row of TCP.SETRESP is. -/
theorem mask_setResp (low len : Word) :
    assemble low len 0#16 &&& 0xFFFFFFFF0000FFFF#64 = assemble low 0#16 0#16 := by
  have hm : (0xFFFFFFFF0000FFFF#64 : BitVec 64) = 0xFFFF#16 ++ 0xFFFF#16 ++ 0#16 ++ 0xFFFF#16 := by decide
  have h : assemble low len 0#16 &&& 0xFFFFFFFF0000FFFF#64 =
      (0#16 ++ 0#16 ++ len ++ low : BitVec (16 + 16 + 16 + 16)) &&& (0xFFFF#16 ++ 0xFFFF#16 ++ 0#16 ++ 0xFFFF#16) := by
    rw [hm]; rfl
  rw [h, BitVec.and_append, BitVec.and_append, BitVec.and_append]
  have h1 : low &&& 0xFFFF#16 = low := BitVec.and_allOnes
  rw [h1, BitVec.and_zero, BitVec.zero_and]
  rfl

theorem regRdDI (addr cnt : Word) : Statement (.regRdDI addr cnt) :=
  ⟨⟨"REG.RD.DI", 0xFFFF00000000FFFF#64, 0x0000000000000001#64⟩, by decide, rfl, (mask_reg _ _ _).trans (by decide)⟩

theorem regRdCO (addr cnt : Word) : Statement (.regRdCO addr cnt) :=
  ⟨⟨"REG.RD.CO", 0xFFFF00000000FFFF#64, 0x0000000000000101#64⟩, by decide, rfl, (mask_reg _ _ _).trans (by decide)⟩

theorem regRdIR (addr cnt : Word) : Statement (.regRdIR addr cnt) :=
  ⟨⟨"REG.RD.IR", 0xFFFF00000000FFFF#64, 0x0000000000000201#64⟩, by decide, rfl, (mask_reg _ _ _).trans (by decide)⟩

theorem regRdHR (addr cnt : Word) : Statement (.regRdHR addr cnt) :=
  ⟨⟨"REG.RD.HR", 0xFFFF00000000FFFF#64, 0x0000000000000301#64⟩, by decide, rfl, (mask_reg _ _ _).trans (by decide)⟩

theorem regWrDI (addr cnt : Word) : Statement (.regWrDI addr cnt) :=
  ⟨⟨"REG.WR.DI", 0xFFFF00000000FFFF#64, 0x0000000000000002#64⟩, by decide, rfl, (mask_reg _ _ _).trans (by decide)⟩

theorem regWrCO (addr cnt : Word) : Statement (.regWrCO addr cnt) :=
  ⟨⟨"REG.WR.CO", 0xFFFF00000000FFFF#64, 0x0000000000000102#64⟩, by decide, rfl, (mask_reg _ _ _).trans (by decide)⟩

theorem regWrIR (addr cnt : Word) : Statement (.regWrIR addr cnt) :=
  ⟨⟨"REG.WR.IR", 0xFFFF00000000FFFF#64, 0x0000000000000202#64⟩, by decide, rfl, (mask_reg _ _ _).trans (by decide)⟩

theorem regWrHR (addr cnt : Word) : Statement (.regWrHR addr cnt) :=
  ⟨⟨"REG.WR.HR", 0xFFFF00000000FFFF#64, 0x0000000000000302#64⟩, by decide, rfl, (mask_reg _ _ _).trans (by decide)⟩

theorem tcpPoll : Statement .tcpPoll :=
  ⟨⟨"TCP.POLL", 0xFFFFFFFFFFFFFFFF#64, 0x0000000000000010#64⟩, by decide, rfl, by decide⟩

theorem tcpGetReq : Statement .tcpGetReq :=
  ⟨⟨"TCP.GETREQ", 0xFFFFFFFFFFFFFFFF#64, 0x0000000000000011#64⟩, by decide, rfl, by decide⟩

theorem tcpSetResp (len : Word) : Statement (.tcpSetResp len) :=
  ⟨⟨"TCP.SETRESP", 0xFFFFFFFF0000FFFF#64, 0x0000000000000012#64⟩, by decide, rfl, (mask_setResp _ _).trans (by decide)⟩

theorem statRd : Statement .statRd :=
  ⟨⟨"STAT.RD", 0xFFFFFFFFFFFFFFFF#64, 0x0000000000000020#64⟩, by decide, rfl, by decide⟩

end Sys2Proof.Laws.TableRow
end

