-- ==== Sys2Proof/Laws/Poll.lean ====
section
/-! SUPPORT. Where a poll can end, once: the cases of steps 1 and 2 (41_tcp_lifecycle R130 to R138). -/

namespace Sys2Proof.Machine

theorem readbackOk_iff (p : Params) (rb cfg : NetCfg) : readbackOk p rb cfg = true ↔ ReadbackAgrees p rb cfg := by
  simp [readbackOk, ReadbackAgrees]

theorem linkDropped_iff (a : ChipAnswers) (s : State) : linkDropped a s = true ↔ LinkDrops a s := by
  simp [linkDropped, LinkDrops]

/-- The state that a re-initialisation leaves, matched or not. -/
def reinitState (ok : Bool) (s : State) : State :=
  ((s.descriptorReset.issue (.programConfig s.netcfg)).issue .readConfig).markInit ok

/-- The port is queried only while a socket is held (R131). -/
def State.probe (s : State) : State := if s.sockValid then s.issue .portActive else s

theorem ensureReady_of_ready {a : ChipAnswers} {s : State} (h : SocketReady a s) :
    ensureReady a s = .goOn (s.issue .portActive) := by
  rw [ensureReady, if_pos h.1, if_pos h.2]

theorem reinitialise_eq (a : ChipAnswers) (s : State) :
    reinitialise a s =
      if readbackOk s.params a.readback s.netcfg then .goOn (reinitState true s) else .ended (reinitState false s) := rfl

theorem ensureReady_of_not {a : ChipAnswers} {s : State} (h : ¬ SocketReady a s) :
    ensureReady a s = reinitialise a s.probe := by
  unfold ensureReady State.probe
  by_cases hv : s.sockValid = true
  · have hp : ¬ a.portActive = true := fun hp => h ⟨hv, hp⟩
    rw [if_pos hv, if_neg hp, if_pos hv]
  · rw [if_neg hv, if_neg hv]

theorem linkCheck_of_up {a : ChipAnswers} {s : State} (h : ¬ LinkDrops a s) :
    linkCheck a s = .goOn { s.issue .linkStatus with linkUp := a.linkUp } := by
  rw [linkCheck, if_neg (fun h' => h ((linkDropped_iff a s).1 h'))]

theorem linkCheck_of_drop {a : ChipAnswers} {s : State} (h : LinkDrops a s) :
    linkCheck a s = .ended ((s.issue .linkStatus).issue .closeSocket).releaseSocket := by
  rw [linkCheck, if_pos ((linkDropped_iff a s).2 h)]

@[simp] theorem State.probe_params (s : State) : s.probe.params = s.params := by unfold State.probe; split <;> rfl

@[simp] theorem State.probe_netcfg (s : State) : s.probe.netcfg = s.netcfg := by unfold State.probe; split <;> rfl

/-- A re-initialised state cannot drop its link: both flags a drop needs are clear. -/
theorem not_linkDrops_reinit (a : ChipAnswers) (ok : Bool) (s : State) : ¬ LinkDrops a (reinitState ok s) := by
  rintro ⟨-, h | h⟩ <;> cases h

theorem atStatus_of_ready {a : ChipAnswers} {s : State} (h : SocketReady a s) :
    s.atStatus a = { ({ (s.issue .portActive).issue .linkStatus with linkUp := a.linkUp } : State).issue .status with
      sockState := a.status } := by
  rw [State.atStatus, if_pos h]; simp [State.issue]

theorem atStatus_of_not {a : ChipAnswers} {s : State} (h : ¬ SocketReady a s) :
    s.atStatus a = { ({ (reinitState true s.probe).issue .linkStatus with linkUp := a.linkUp } : State).issue .status with
      sockState := a.status } := by
  rw [State.atStatus, if_neg h]
  by_cases hv : s.sockValid = true <;>
    simp [State.issue, reinitState, State.probe, hv, State.markInit, State.descriptorReset]

/-! What has not changed when the status is read: `atStatus` writes the descriptor, the bookkeeping and the trace. -/

@[simp] theorem State.atStatus_params (a : ChipAnswers) (s : State) : (s.atStatus a).params = s.params := by
  unfold State.atStatus; split <;> rfl
@[simp] theorem State.atStatus_bytesDI (a : ChipAnswers) (s : State) : (s.atStatus a).bytesDI = s.bytesDI := by
  unfold State.atStatus; split <;> rfl
@[simp] theorem State.atStatus_bytesCO (a : ChipAnswers) (s : State) : (s.atStatus a).bytesCO = s.bytesCO := by
  unfold State.atStatus; split <;> rfl
@[simp] theorem State.atStatus_wordsIR (a : ChipAnswers) (s : State) : (s.atStatus a).wordsIR = s.wordsIR := by
  unfold State.atStatus; split <;> rfl
@[simp] theorem State.atStatus_wordsHR (a : ChipAnswers) (s : State) : (s.atStatus a).wordsHR = s.wordsHR := by
  unfold State.atStatus; split <;> rfl
@[simp] theorem State.atStatus_mode (a : ChipAnswers) (s : State) : (s.atStatus a).mode = s.mode := by
  unfold State.atStatus; split <;> rfl
@[simp] theorem State.atStatus_netcfg (a : ChipAnswers) (s : State) : (s.atStatus a).netcfg = s.netcfg := by
  unfold State.atStatus; split <;> rfl
@[simp] theorem State.atStatus_rxEn (a : ChipAnswers) (s : State) : (s.atStatus a).rxEn = s.rxEn := by
  unfold State.atStatus; split <;> rfl
@[simp] theorem State.atStatus_rxBuf (a : ChipAnswers) (s : State) : (s.atStatus a).rxBuf = s.rxBuf := by
  unfold State.atStatus; split <;> rfl
@[simp] theorem State.atStatus_txBuf (a : ChipAnswers) (s : State) : (s.atStatus a).txBuf = s.txBuf := by
  unfold State.atStatus; split <;> rfl
@[simp] theorem State.atStatus_svc (a : ChipAnswers) (s : State) : (s.atStatus a).svc = s.svc := by
  unfold State.atStatus; split <;> rfl
@[simp] theorem State.atStatus_savedEvent (a : ChipAnswers) (s : State) : (s.atStatus a).savedEvent = s.savedEvent := by
  unfold State.atStatus; split <;> rfl
@[simp] theorem State.atStatus_slot (a : ChipAnswers) (s : State) : (s.atStatus a).slot = s.slot := by
  unfold State.atStatus; split <;> rfl
@[simp] theorem State.atStatus_pending (a : ChipAnswers) (s : State) : (s.atStatus a).pending = s.pending := by
  unfold State.atStatus; split <;> rfl
@[simp] theorem State.atStatus_din (a : ChipAnswers) (s : State) : (s.atStatus a).din = s.din := by
  unfold State.atStatus; split <;> rfl
@[simp] theorem State.atStatus_responses (a : ChipAnswers) (s : State) : (s.atStatus a).responses = s.responses := by
  unfold State.atStatus; split <;> rfl
@[simp] theorem State.atStatus_chip (a : ChipAnswers) (s : State) : (s.atStatus a).chip = s.chip := by
  unfold State.atStatus; split <;> rfl
@[simp] theorem State.atStatus_draws (a : ChipAnswers) (s : State) : (s.atStatus a).draws = s.draws := by
  unfold State.atStatus; split <;> rfl
@[simp] theorem State.atStatus_engine (a : ChipAnswers) (s : State) : (s.atStatus a).engine = s.engine := by
  unfold State.atStatus; split <;> rfl
@[simp] theorem State.atStatus_outsidePuts (a : ChipAnswers) (s : State) : (s.atStatus a).outsidePuts = s.outsidePuts := by
  unfold State.atStatus; split <;> rfl
@[simp] theorem State.atStatus_engineReads (a : ChipAnswers) (s : State) : (s.atStatus a).engineReads = s.engineReads := by
  unfold State.atStatus; split <;> rfl

@[simp] theorem State.atStatus_linkUp (a : ChipAnswers) (s : State) : (s.atStatus a).linkUp = a.linkUp := by
  unfold State.atStatus; split <;> rfl

@[simp] theorem State.atStatus_sockState (a : ChipAnswers) (s : State) : (s.atStatus a).sockState = a.status := by
  unfold State.atStatus; split <;> rfl

@[simp] theorem State.atStatus_sockValid (a : ChipAnswers) (s : State) : (s.atStatus a).sockValid = true := by
  unfold State.atStatus; split
  · rename_i h; exact h.1
  · rfl

/-- A poll that reaches step 3 acts on the status from `atStatus` (R139). -/
theorem pollSteps_of_reaches {a : ChipAnswers} {s : State} (h : ReachesStatus a s) :
    pollSteps a s = statusAction a (statusOf s.params a.status) (s.atStatus a) := by
  rcases h with ⟨hr, hd⟩ | ⟨hr, hb⟩
  · have hd' : ¬ LinkDrops a (s.issue .portActive) := hd
    rw [pollSteps, ensureReady_of_ready hr]
    simp only [linkCheck_of_up hd']
    rw [atStatus_of_ready hr]
    rfl
  · rw [pollSteps, ensureReady_of_not hr, reinitialise_eq, State.probe_params, State.probe_netcfg,
      if_pos ((readbackOk_iff ..).2 hb)]
    simp only [linkCheck_of_up (not_linkDrops_reinit a true s.probe)]
    rw [atStatus_of_not hr, ← State.probe_params s]
    rfl

/-- A poll that finds the chip ready and the link dropped releases the socket and ends (R137). -/
theorem pollSteps_of_drop {a : ChipAnswers} {s : State} (hr : SocketReady a s) (hd : LinkDrops a s) :
    pollSteps a s = (((s.issue .portActive).issue .linkStatus).issue .closeSocket).releaseSocket := by
  have hd' : LinkDrops a (s.issue .portActive) := hd
  rw [pollSteps, ensureReady_of_ready hr]
  simp only [linkCheck_of_drop hd']

/-- A poll whose readback mismatches ends (R134). -/
theorem pollSteps_of_mismatch {a : ChipAnswers} {s : State} (hr : ¬ SocketReady a s)
    (hb : ¬ ReadbackAgrees s.params a.readback s.netcfg) : pollSteps a s = reinitState false s.probe := by
  rw [pollSteps, ensureReady_of_not hr, reinitialise_eq, State.probe_params, State.probe_netcfg,
    if_neg (fun h => hb ((readbackOk_iff ..).1 h))]

/-- Every poll does one of three things: it reaches the status, it ends on a link drop, or it ends on a failed
readback. -/
theorem poll_cases (a : ChipAnswers) (s : State) :
    ReachesStatus a s ∨ (SocketReady a s ∧ LinkDrops a s) ∨
    (¬ SocketReady a s ∧ ¬ ReadbackAgrees s.params a.readback s.netcfg) := by
  unfold ReachesStatus
  by_cases hr : SocketReady a s
  · by_cases hd : LinkDrops a s
    · exact .inr (.inl ⟨hr, hd⟩)
    · exact .inl (.inl ⟨hr, hd⟩)
  · by_cases hb : ReadbackAgrees s.params a.readback s.netcfg
    · exact .inl (.inr ⟨hr, hb⟩)
    · exact .inr (.inr ⟨hr, hb⟩)

/-- A poll keeps every earlier response. -/
theorem pollSteps_responses (a : ChipAnswers) (s : State) : ∃ more, (pollSteps a s).responses = s.responses ++ more := by
  rcases poll_cases a s with h | ⟨h, h'⟩ | ⟨h, h'⟩
  · rw [pollSteps_of_reaches h]
    cases statusOf s.params a.status
    case established =>
      simp only [statusAction, onEstablished]
      split
      · set A : State := phaseA a (({ s.atStatus a with connected := true } : State).issue .rxReady) with hA
        obtain ⟨m, hm⟩ := engineRun_responses A.engineOps A.drawEngine
        refine ⟨m, ?_⟩
        rw [State.issue_responses, service, ← hA, engineStep, phaseB_responses, hm]
        simp [State.drawEngine, hA]
      · exact ⟨[], by simp [State.issue]⟩
    all_goals exact ⟨[], by simp [statusAction, onClosed, onInit, onCloseWait, State.issue]⟩
  · rw [pollSteps_of_drop h h']; exact ⟨[], by simp [State.issue, State.releaseSocket]⟩
  · rw [pollSteps_of_mismatch h h']
    exact ⟨[], by simp [reinitState, State.probe, State.issue, State.markInit, State.descriptorReset]; split <;> rfl⟩

end Sys2Proof.Machine
end

