-- ==== Sys2Proof/Laws/Requests.lean ====
section
/-! SUPPORT. The address decoder and the shared register operations, case by case (40_register_store R101 to
R109). -/

namespace Sys2Proof.Machine

/-- The address decoder passes exactly the requests in range. -/
theorem addressDecode_eq (p : Params) (sp : Space) (a n : Word) :
    addressDecode p sp a n = if InRange p sp a n then some (a.toNat - p.start sp) else none := by
  unfold addressDecode InRange
  split
  · rw [if_neg (by omega)]
  · rw [if_pos (by omega)]

theorem addressDecode_of_inRange {p : Params} {sp : Space} {a n : Word} (h : InRange p sp a n) :
    addressDecode p sp a n = some (a.toNat - p.start sp) := by rw [addressDecode_eq, if_pos h]

theorem addressDecode_of_not {p : Params} {sp : Space} {a n : Word} (h : ¬ InRange p sp a n) :
    addressDecode p sp a n = none := by rw [addressDecode_eq, if_neg h]

/-- A decoded range lies inside its space. -/
theorem addressDecode_bound {p : Params} {sp : Space} {a n : Word} {idx : Nat}
    (h : addressDecode p sp a n = some idx) : idx + n.toNat ≤ p.qty sp := by
  rw [addressDecode_eq] at h
  split at h
  · rename_i hr
    obtain ⟨h1, h2⟩ := hr
    simp only [Option.some.injEq] at h
    omega
  · cases h

/-- The cases of a bit write: what `writeBits` leaves, once. -/
theorem writeBits_cases (sp : BitSpace) (a n : Word) (s : State) :
    writeBits sp a n s = s.reject .noSuchRegister ∨ writeBits sp a n s = s.reject .dataShort ∨
    ∃ idx, addressDecode s.params sp.space a n = some idx ∧ ceil8 n.toNat ≤ s.din.length ∧
      writeBits sp a n s = (s.setBits sp (bitWrite (s.bits sp) idx n.toNat s.din)).respond .ok [] := by
  unfold writeBits
  split
  · exact .inl rfl
  · split
    · exact .inr (.inl rfl)
    · exact .inr (.inr ⟨_, ‹_›, by omega, rfl⟩)

/-- The cases of a word write: what `writeWords` leaves, once. -/
theorem writeWords_cases (sp : WordSpace) (a n : Word) (s : State) :
    writeWords sp a n s = s.reject .noSuchRegister ∨ writeWords sp a n s = s.reject .dataShort ∨
    ∃ idx, addressDecode s.params sp.space a n = some idx ∧ 2 * n.toNat ≤ s.din.length ∧
      writeWords sp a n s = (s.setWords sp (wordWrite (s.words sp) idx s.din n.toNat)).respond .ok [] := by
  unfold writeWords
  split
  · exact .inl rfl
  · split
    · exact .inr (.inl rfl)
    · exact .inr (.inr ⟨_, ‹_›, by omega, rfl⟩)

/-- The cases of TCP.SETRESP: what it leaves, once. -/
theorem tcpSetResp_cases (len : Word) (s : State) :
    (∃ st, tcpSetResp len s = s.reject st) ∨
    (s.svc = true ∧ len.toNat ≤ s.params.txBufSize ∧ len.toNat ≤ s.din.length ∧
      tcpSetResp len s = (s.loadResponse len).respond .ok []) := by
  unfold tcpSetResp
  split
  · split
    · exact .inl ⟨_, rfl⟩
    · split
      · exact .inl ⟨_, rfl⟩
      · exact .inr ⟨‹_›, by omega, by omega, rfl⟩
  · exact .inl ⟨_, rfl⟩

end Sys2Proof.Machine
end

