-- ==== Sys2Proof/Tests/Slice0.lean ====
section
/-! SUPPORT. The model's own tests: expected results are the vectors and programs of spec/95_test_vectors.md (the
vector's name stands in each docstring), or R75's encodings written out; and for every statement with hypotheses a
witness: concrete data that meets them. -/

namespace Sys2Proof.Tests

open Sys2Proof Sys2Proof.Machine

/-! ### Well-formedness: each check refuses an ill-formed term -/

def tc : Params := Config.testConfiguration

theorem test_wf_testConfiguration : tc.wf = true := by decide
theorem test_wf_map_di : Params.wf { tc with startDI := 65530, qtyDI := 7 } = false := by decide
theorem test_wf_map_co : Params.wf { tc with startCO := 65536, qtyCO := 0 } = false := by decide
theorem test_wf_map_ir : Params.wf { tc with startIR := 1, qtyIR := 65536 } = false := by decide
theorem test_wf_map_hr : Params.wf { tc with startHR := 0, qtyHR := 65537 } = false := by decide
theorem test_wf_map_whole : Params.wf { tc with startHR := 0, qtyHR := 65536 } = true := by decide
theorem test_wf_rxBuffer : Params.wf { tc with rxBufSize := 0 } = false := by decide
theorem test_wf_txBuffer : Params.wf { tc with txBufSize := 0 } = false := by decide
theorem test_wf_srCode_twice : Params.wf { tc with srCode := (0x00#8, .init) :: tc.srCode } = false := by decide
theorem test_wf_srCode_noClosed : Params.wf { tc with srCode := [(0x13#8, .init)] } = false := by decide
theorem test_wf_verifyFields : Params.wf { tc with verifyFields := [.mac, .mac] } = false := by decide

/-! ### Decoding: words of R75 written out bit by bit, RSV1 CNT ADDR RSV0 SP OPC (R71) -/

/-- REG.RD.DI 1, 5: V-E1. -/
theorem test_decode_regRdDI :
    decode (0b0000000000000000#16 ++ 0b0000000000000101#16 ++ 0b0000000000000001#16 ++ 0b000000#6 ++ 0b00#2 ++ 0b00000001#8)
      = .ok (.regRdDI 1#16 5#16) := by decide
/-- REG.RD.CO 6, 8: P1 step 4. -/
theorem test_decode_regRdCO : decode 0x0000000800060101#64 = .ok (.regRdCO 6#16 8#16) := by decide
/-- REG.RD.IR 103, 1: V-E3. -/
theorem test_decode_regRdIR : decode 0x0000000100670201#64 = .ok (.regRdIR 103#16 1#16) := by decide
/-- REG.RD.HR 1, 2: P2 step 5. -/
theorem test_decode_regRdHR : decode 0x0000000200010301#64 = .ok (.regRdHR 1#16 2#16) := by decide
/-- REG.WR.DI 1, 5: S7. -/
theorem test_decode_regWrDI : decode 0x0000000500010002#64 = .ok (.regWrDI 1#16 5#16) := by decide
/-- REG.WR.CO 4, 10: V-E2. -/
theorem test_decode_regWrCO :
    decode (0b0000000000000000#16 ++ 0b0000000000001010#16 ++ 0b0000000000000100#16 ++ 0b000000#6 ++ 0b01#2 ++ 0b00000010#8)
      = .ok (.regWrCO 4#16 10#16) := by decide
/-- REG.WR.IR: R75's CMD[15:0] = 0x0202. -/
theorem test_decode_regWrIR : decode 0x0000000100670202#64 = .ok (.regWrIR 103#16 1#16) := by decide
/-- REG.WR.HR 1, 2: V-E4. -/
theorem test_decode_regWrHR : decode 0x0000000200010302#64 = .ok (.regWrHR 1#16 2#16) := by decide
/-- TCP.POLL: V-E5. -/
theorem test_decode_tcpPoll :
    decode (0b0000000000000000#16 ++ 0b0000000000000000#16 ++ 0b0000000000000000#16 ++ 0b000000#6 ++ 0b00#2 ++ 0b00010000#8)
      = .ok .tcpPoll := by decide
/-- TCP.GETREQ: V-E15. -/
theorem test_decode_tcpGetReq : decode 0x0000000000000011#64 = .ok .tcpGetReq := by decide
/-- TCP.SETRESP with LEN 5: V-E6. -/
theorem test_decode_tcpSetResp : decode 0x0000000000050012#64 = .ok (.tcpSetResp 5#16) := by decide
/-- STAT.RD: V-E14. -/
theorem test_decode_statRd : decode 0x0000000000000020#64 = .ok .statRd := by decide
/-- V-E7 to V-E13: reserved words, each by the step of R76 that rejects it. -/
theorem test_decode_reserved :
    decode 0x0000000000000000#64 = .error .unknownOpcode ∧ decode 0x0000000000000003#64 = .error .unknownOpcode ∧
    decode 0x0000000500010401#64 = .error .reservedBits ∧ decode 0x0001000500010001#64 = .error .reservedBits ∧
    decode 0x0000000000010010#64 = .error .addressNotZero ∧ decode 0x0000000000000110#64 = .error .spaceNotZero ∧
    decode 0x0000000100000012#64 = .error .countNotZero := by decide
/-- A serialised transaction is big-endian (R54); seven bytes hold no word (R82). -/
theorem test_decodeBytes :
    decodeBytes [0x00#8, 0x00#8, 0x00#8, 0x0A#8, 0x00#8, 0x04#8, 0x01#8, 0x02#8, 0xAB#8, 0x03#8]
      = .ok (.regWrCO 4#16 10#16, [0xAB#8, 0x03#8]) ∧
    decodeBytes [0x00#8, 0x00#8, 0x00#8, 0x0A#8, 0x00#8, 0x04#8, 0x01#8] = .error .truncated := by decide
theorem test_decodeTableWord : decodeTableWord 64 0x0201 = some (.regRdIR 0#16 0#16) ∧
    decodeTableWord 64 0x0401 = none ∧ decodeTableWord 65 0x0201 = none := by decide
/-- The line of R83 for V-E2. -/
theorem test_assembly : (Instr.regWrCO 4#16 10#16).assembly [0xAB#8, 0x03#8] = "REG.WR.CO 4, 10 <- [171, 3]" := by decide

/-! ### Single commands -/

/-- What a command leaves, read through `f`. -/
def after {α : Type} (i : Instr) (s : State) (f : State → α) : Option α :=
  match exec i s with
  | .next t => some (f t)
  | .fault _ => none
  | .refused _ => none

/-- A state with coils set and data on the stream. -/
def coils (b0 b1 b2 : Byte) (din : List Byte) : State :=
  { State.reset with bytesCO := [(0, b0), (1, b1), (2, b2)], din := din }

/-- V-B2. -/
theorem test_regRdDI : after (.regRdDI 1#16 5#16) { State.reset with bytesDI := [(0, 0xF6#8)] } (·.responses)
    = some [⟨.ok, [0x16#8]⟩] := by decide
/-- V-B11: bit offset 3. -/
theorem test_regRdCO_offset : after (.regRdCO 4#16 16#16) (coils 0x12#8 0x34#8 0x0F#8 []) (·.responses)
    = some [⟨.ok, [0x82#8, 0xE6#8]⟩] := by decide
/-- V-B7: padding bits are not returned. -/
theorem test_regRdCO_padding : after (.regRdCO 1#16 20#16) (coils 0xFF#8 0xFF#8 0xFF#8 []) (·.responses)
    = some [⟨.ok, [0xFF#8, 0xFF#8, 0x0F#8]⟩] := by decide
/-- V-W8, with a word of R112's example beside it. -/
theorem test_regRdIR : after (.regRdIR 100#16 4#16) { State.reset with wordsIR := [(0, 0x8000#16), (3, 0x1234#16)] }
    (·.responses) = some [⟨.ok, [0x80#8, 0x00#8, 0x00#8, 0x00#8, 0x00#8, 0x00#8, 0x12#8, 0x34#8]⟩] := by decide
/-- V-W2. -/
theorem test_regRdHR : after (.regRdHR 2#16 1#16) { State.reset with wordsHR := [(0, 0x1234#16), (1, 0xFFFE#16)] }
    (·.responses) = some [⟨.ok, [0xFF#8, 0xFE#8]⟩] := by decide
/-- V-D5: no 16-bit wrap. -/
theorem test_regRdHR_noWrap : after (.regRdHR 0xFFFF#16 2#16) State.reset (·.responses)
    = some [⟨.noSuchRegister, []⟩] := by decide
/-- V-B1. -/
theorem test_regWrDI : after (.regWrDI 1#16 5#16) { State.reset with bytesDI := [(0, 0xE0#8)], din := [0x16#8] }
    (fun t => (t.bytesDI, t.responses)) = some ([(0, 0xF6#8)], [⟨.ok, []⟩]) := by decide
/-- V-B4, written over zeros: byte 2 stays unlisted. -/
theorem test_regWrCO : after (.regWrCO 4#16 10#16) { State.reset with din := [0xAB#8, 0xFF#8] } (·.bytesCO)
    = some [(0, 0x58#8), (1, 0x1D#8)] := by decide
/-- V-B9: spans two bytes, no partial group. -/
theorem test_regWrCO_spans : after (.regWrCO 6#16 8#16) (coils 0xFF#8 0xFF#8 0xFF#8 [0x5A#8]) (·.bytesCO)
    = some [(0, 0x5F#8), (1, 0xEB#8), (2, 0xFF#8)] := by decide
/-- V-W4. -/
theorem test_regWrIR : after (.regWrIR 103#16 1#16) { State.reset with din := [0x12#8, 0x34#8] } (·.wordsIR)
    = some [(3, 0x1234#16)] := by decide
/-- V-W1. -/
theorem test_regWrHR : after (.regWrHR 1#16 2#16) { State.reset with din := [0x12#8, 0x34#8, 0xFF#8, 0xFE#8] }
    (·.wordsHR) = some [(0, 0x1234#16), (1, 0xFFFE#16)] := by decide
/-- V-W6, V-W7, V-W9: rejected whole, range first. -/
theorem test_regWrHR_rejected :
    after (.regWrHR 10#16 2#16) { State.reset with din := [1#8, 2#8, 3#8, 4#8] } (fun t => (t.wordsHR, t.responses))
      = some ([], [⟨.noSuchRegister, []⟩]) ∧
    after (.regWrHR 1#16 2#16) { State.reset with din := [1#8, 2#8, 3#8] } (fun t => (t.wordsHR, t.responses))
      = some ([], [⟨.dataShort, []⟩]) ∧
    after (.regWrHR 10#16 2#16) State.reset (·.responses) = some [⟨.noSuchRegister, []⟩] := by decide

/-- A state inside an envelope that received `[0x01, 0x02]` (R154's example). -/
def envelope (din : List Byte) : State :=
  { State.reset with sockValid := true, svc := true, mode := .tcp, rxRecv := true, rxLen := 2#16,
                     rxBuf := [(0, 0x01#8), (1, 0x02#8)], din := din }

/-- R154's example. -/
theorem test_tcpGetReq : after .tcpGetReq (envelope []) (fun t => (t.responses, t.rxRecv))
    = some ([⟨.ok, [0x01#8, 0x02#8]⟩], false) := by decide
/-- R155's example. -/
theorem test_tcpSetResp : after (.tcpSetResp 1#16) (envelope [0xAA#8]) (fun t => (t.txBuf, t.txLen, t.txEn))
    = some ([(0, 0xAA#8)], 1#16, true) := by decide
/-- V-F12. -/
theorem test_tcpSetResp_overflow : after (.tcpSetResp 17#16) (envelope []) (fun t => (t.responses, t.txEn))
    = some ([⟨.respOverflow, []⟩], false) := by decide
/-- V-F14. -/
theorem test_statRd_reset : after .statRd State.reset (·.responses)
    = some [⟨.ok, [0#8, 0#8, 0#8, 0#8, 0#8, 0#8, 0#8, 0#8]⟩] := by decide

/-! ### Polls -/

/-- One poll's chip answers: port, link, status, receive count, received bytes; the readback is right. -/
def answers (port link : Bool) (sr : Byte) (rx : Word) (bytes : List Byte) : ChipAnswers :=
  { portActive := port, readback := Config.defaultNetCfg, linkUp := link, status := sr, rxReady := rx, recv := bytes }

/-- A state between commands with a socket held. -/
def ready (linkUp connected : Bool) (a : ChipAnswers) : State :=
  { State.reset with sockValid := true, linkUp := linkUp, connected := connected, chip := [a] }

def opened : ChipOp := .openSocket 502#16 [.noDelay, .nonBlocking]

/-- R153's example, P3 poll 1. -/
theorem test_tcpPoll_first : after .tcpPoll { State.reset with chip := [answers false true 0x00#8 0#16 []] }
    (fun t => (t.chipTrace, t.sockValid, t.linkUp, t.connected, t.responses))
    = some ([.programConfig Config.defaultNetCfg, .readConfig, .linkStatus, .status, opened], true, true, false,
        [⟨.ok, []⟩]) := by decide
/-- V-F2: the readback differs in the IP; STATUS = 0x0040. -/
theorem test_tcpPoll_mismatch :
    after .tcpPoll { State.reset with chip := [{ answers true true 0x00#8 0#16 [] with
      readback := { Config.defaultNetCfg with ip := 1#32 } }] } (fun t => (t.chipTrace, statusWord t))
    = some ([.programConfig Config.defaultNetCfg, .readConfig], 0x0040#16) := by decide
/-- V-F4: the port is inactive. -/
theorem test_tcpPoll_portInactive : after .tcpPoll (ready false false (answers false true 0x00#8 0#16 []))
    (fun t => (t.chipTrace, t.linkUp))
    = some ([.portActive, .programConfig Config.defaultNetCfg, .readConfig, .linkStatus, .status, opened], true) := by
  decide
/-- V-F5 and V-F6. -/
theorem test_tcpPoll_drop :
    after .tcpPoll (ready true false (answers true false 0x17#8 0#16 [])) (fun t => (t.chipTrace, t.sockValid, t.linkUp))
      = some ([.portActive, .linkStatus, .closeSocket], false, false) ∧
    after .tcpPoll (ready false true (answers true false 0x17#8 0#16 [])) (fun t => (t.connected, t.sockValid))
      = some (false, false) := by decide
/-- V-F8. -/
theorem test_tcpPoll_other : after .tcpPoll (ready true true (answers true true 0x42#8 0#16 []))
    (fun t => (t.chipTrace, t.sockState, t.connected))
    = some ([.portActive, .linkStatus, .status], 0x42#8, true) := by decide
/-- V-F1 polls 2 and 5. -/
theorem test_tcpPoll_init_closeWait :
    after .tcpPoll (ready true false (answers true true 0x13#8 0#16 [])) (·.chipTrace)
      = some [.portActive, .linkStatus, .status, .listen] ∧
    after .tcpPoll (ready true true (answers true true 0x1C#8 0#16 [])) (fun t => (t.chipTrace, t.connected))
      = some ([.portActive, .linkStatus, .status, .disconnect], true) := by decide
/-- V-F9. -/
theorem test_tcpPoll_established_idle : after .tcpPoll (ready true true (answers true true 0x17#8 0#16 []))
    (fun t => (t.chipTrace, t.mode)) = some ([.portActive, .linkStatus, .status, .rxReady, .setKeepalive 0], .rtu) := by
  decide

/-- Twelve request bytes and thirteen response bytes, opaque to the block (P3 poll 5). -/
def request : List Byte := (List.range 12).map (fun k => BitVec.ofNat 8 (k + 0x30))
def reply : List Byte := (List.range 13).map (fun k => BitVec.ofNat 8 (k + 0x60))

/-- P3 before poll 5: an RTU event waits in the slot; the engine's stub answers the request and consumes the event. -/
def serving : State :=
  { ready true true (answers true true 0x17#8 12#16 request) with
      sockState := 0x17#8
      wordsHR := [(0, 0x1234#16), (1, 0xFFFE#16)]
      slot := some .execute
      engine := [[.command ⟨0x0000000000000011#64, []⟩, .command ⟨0x0000000200010301#64, []⟩,
        .command ⟨0x00000000000D0012#64, reply⟩, .evRead, .evPut none]] }

/-- P3 poll 5: the primitives, the responses in order, and what the poll leaves. -/
theorem test_tcpPoll_serves :
    after .tcpPoll serving (fun t => (t.chipTrace, t.responses, t.slot, t.engineReads))
    = some ([.portActive, .linkStatus, .status, .rxReady, .recv 12, .send reply, .setKeepalive 0],
        [⟨.ok, request⟩, ⟨.ok, [0x12#8, 0x34#8, 0xFF#8, 0xFE#8]⟩, ⟨.ok, []⟩, ⟨.ok, []⟩],
        some .execute, [some .frameReceived]) := by decide
/-- P3, STAT.RD after poll 5. -/
theorem test_tcpPoll_serves_snapshot : after .tcpPoll serving (fun t => (snapshot t, t.mode, t.svc))
    = some ([0x00#8, 0x8B#8, 0x17#8, 0x00#8, 0x00#8, 0x0C#8, 0x00#8, 0x0D#8], .rtu, false) := by decide
/-- V-F13: more bytes than the buffer holds, and an engine that does nothing; posts by other agents are lost. -/
theorem test_tcpPoll_receive_bound :
    after .tcpPoll { ready true true (answers true true 0x17#8 20#16 (request ++ request)) with
        engine := [[]], outsidePuts := [[], [some .execute], [some .frameSent]] }
      (fun t => (t.chipTrace, t.rxLen, t.txSent, t.slot, t.mode))
    = some ([.portActive, .linkStatus, .status, .rxReady, .recv 16, .setKeepalive 0], 16#16, false, none, .rtu) := by
  decide

/-! ### Steps -/

/-- P2 step 4: a reserved word through a step. -/
theorem test_step_reserved :
    (match step { State.reset with pending := [⟨0x0000000200010401#64, []⟩] } with
      | .next t => some (t.responses, t.pending)
      | .fault _ => none
      | .refused _ => none) = some ([⟨.illegalCommand, []⟩], []) := by decide
/-- A placed word runs at once. -/
theorem test_step_placed :
    (match step (State.reset.withFetchWord 64 0x20) with
      | .next t => some t.responses
      | .fault _ => none
      | .refused _ => none) = some [⟨.ok, [0#8, 0#8, 0#8, 0#8, 0#8, 0#8, 0#8, 0#8]⟩] := by decide

/-! ### Witnesses: data that meets a statement's hypotheses, clause by clause -/

/-- `serving` is sound and between commands. -/
theorem serving_inv : serving.Inv :=
  { params := by decide, wfDI := by decide, wfCO := by decide, wfIR := by decide, wfHR := by decide, wfRx := by decide,
    wfTx := by decide, withinDI := by decide, withinCO := by decide, withinIR := by decide, withinHR := by decide,
    withinRx := by decide, withinTx := by decide, netcfg := by decide, rxEn := rfl, rxLen := by decide,
    txLen := by decide, notFailed := by decide, connected := by decide, linkUp := by decide, svc := rfl, mode := rfl,
    txEn := rfl }

/-- `envelope` is sound and inside an envelope. -/
theorem envelope_inv : (envelope []).InEnvelope :=
  { params := by decide, wfDI := by decide, wfCO := by decide, wfIR := by decide, wfHR := by decide, wfRx := by decide,
    wfTx := by decide, withinDI := by decide, withinCO := by decide, withinIR := by decide, withinHR := by decide,
    withinRx := by decide, withinTx := by decide, netcfg := by decide, rxEn := rfl, rxLen := by decide,
    txLen := by decide, notFailed := by decide, connected := by decide, linkUp := by decide, svc := rfl, mode := rfl }

theorem witness_ValidWordsMatchOneRow :
    decode 0x0000000200010301#64 = .ok (.regRdHR 1#16 2#16) ∧
    ∃ r ∈ opcodeTable, 0x0000000200010301#64 &&& r.mask = r.pattern := by decide

theorem witness_StepRunsDecodedCommand :
    decode (⟨0x0000000000000020#64, [7#8]⟩ : Command).word = .ok .statRd ∧
    ({ State.reset with pending := [⟨0x0000000000000020#64, [7#8]⟩] } : State).pending = ⟨0x0000000000000020#64, [7#8]⟩ :: [] ∧
    State.reset.pending = [] := by decide

theorem witness_PlacedWordRuns : State.reset.outsidePuts = [] := by decide

theorem witness_OutsideWritesLastWins :
    State.reset.outsidePuts = [] ∧ ({ State.reset with outsidePuts := [[]] } : State).outsidePuts = [] :: [] ∧
    ({ State.reset with outsidePuts := [[some .execute, none]] } : State).outsidePuts = ([some .execute] ++ [none]) :: [] := by
  decide

/-- Also of `FirstErrorReportedWithoutEffect`'s clause on reserved words. -/
theorem witness_IllegalCommandsHaveNoEffect :
    (∀ i, decode (⟨0x0000000000000000#64, []⟩ : Command).word ≠ .ok i) ∧
    ({ State.reset with pending := [⟨0x0000000000000000#64, []⟩] } : State).pending = ⟨0x0000000000000000#64, []⟩ :: [] ∧
    State.reset.svc = false ∧ (envelope []).svc = true := by
  refine ⟨fun i h => ?_, by decide, by decide, by decide⟩
  have h' : decode 0x0000000000000000#64 = .error .unknownOpcode := by decide
  rw [h'] at h
  cases h

/-- Every error of `FirstErrorReportedWithoutEffect` applies somewhere, and so does none. -/
theorem witness_FirstErrorReportedWithoutEffect :
    ¬ InRange tc .hr 0#16 1#16 ∧ InRange tc .hr 1#16 10#16 ∧ (State.reset.din.length < 2 * (10#16 : Word).toNat) ∧
    State.reset.svc = false ∧ (envelope []).svc = true ∧ tc.txBufSize < (17#16 : Word).toNat ∧
    (envelope []).din.length < (16#16 : Word).toNat ∧ ¬ tc.txBufSize < (16#16 : Word).toNat := by decide

theorem witness_ExtraDataIgnored :
    dinNeeded (.regWrCO 6#16 8#16) ≤ (coils 0#8 0#8 0#8 [0x5A#8]).din.length ∧
    dinNeeded (.regWrHR 1#16 1#16) ≤ (envelope [1#8, 2#8]).din.length ∧
    dinNeeded (.tcpSetResp 2#16) ≤ (envelope [1#8, 2#8]).din.length := by
  decide

/-- V-D1, V-D6 pass; V-D2 to V-D4 do not: both ends of the range. -/
theorem witness_AddressDecoderExact :
    InRange tc .hr 1#16 10#16 ∧ InRange tc .hr 11#16 0#16 ∧ ¬ InRange tc .hr 0#16 1#16 ∧ ¬ InRange tc .hr 10#16 2#16 ∧
    addressDecode tc .hr 1#16 10#16 = some 0 ∧ addressDecode tc .hr 11#16 0#16 = some 10 ∧
    State.reset.params = tc ∧ addressDecode tc .hr 10#16 2#16 = none := by decide

theorem witness_OutOfRangeRejectedWhole :
    (0#16 : Word).toNat < State.reset.params.start .hr ∧
    (10#16 : Word).toNat + (2#16 : Word).toNat > State.reset.params.start .hr + State.reset.params.qty .hr := by decide

theorem witness_ElementLayout : Memory.wf ([(0, 0xFF#8), (2, 0x01#8)] : Memory 8) = true ∧
    Memory.wf ([(1, 0x1234#16)] : Memory 16) = true ∧
    addressDecode tc .co 20#16 1#16 = some 19 ∧ 1 ≤ (1#16 : Word).toNat := by decide

theorem witness_BitReadReturnsElements : InRange tc .co 1#16 20#16 ∧ ¬ InRange tc .co 21#16 1#16 ∧
    InRange tc .di 1#16 8#16 ∧ ¬ InRange tc .di 2#16 8#16 := by decide

theorem witness_WordReadReturnsWords : InRange tc .ir 103#16 1#16 ∧ ¬ InRange tc .ir 103#16 2#16 ∧
    ¬ InRange tc .ir 99#16 1#16 ∧ InRange tc .hr 10#16 1#16 := by decide

/-- A gather that differs from the storage past the count (R104: any value there). -/
theorem witness_TwoStageReadAgrees :
    ∀ i, 0 ≤ i → i < 0 + 5 → (fun i => decide (i ≠ 0)) i = Memory.readBit [(0, 0x1E#8)] i := by decide

theorem witness_BitWriteChangesExactlyItsElements :
    ((coils 0xFF#8 0xFF#8 0xFF#8 [0x5A#8]).bits .co).wf = true ∧ InRange tc .co 13#16 8#16 ∧ ¬ InRange tc .co 14#16 8#16 ∧
    ((8#16 : Word).toNat + 7) / 8 ≤ (coils 0xFF#8 0xFF#8 0xFF#8 [0x5A#8]).din.length ∧
    (coils 0xFF#8 0xFF#8 0xFF#8 []).din.length < ((8#16 : Word).toNat + 7) / 8 := by decide

theorem witness_WordWriteChangesExactlyItsWords :
    (serving.words .hr).wf = true ∧ InRange tc .hr 10#16 1#16 ∧ ¬ InRange tc .hr 11#16 1#16 ∧
    2 * (1#16 : Word).toNat ≤ (envelope [1#8, 2#8]).din.length ∧ (envelope [1#8]).din.length < 2 * (1#16 : Word).toNat := by
  decide

theorem witness_ShortDataRejected :
    InRange tc .co 1#16 1#16 ∧ State.reset.din.length < ((1#16 : Word).toNat + 7) / 8 ∧
    InRange tc .hr 1#16 1#16 ∧ State.reset.din.length < 2 * (1#16 : Word).toNat ∧
    (envelope []).svc = true ∧ (16#16 : Word).toNat ≤ tc.txBufSize ∧ (envelope []).din.length < (16#16 : Word).toNat := by
  decide

theorem witness_WriteThenReadRoundTrip :
    (serving.words .hr).wf = true ∧ InRange tc .hr 3#16 1#16 ∧ 2 * (1#16 : Word).toNat ≤ (envelope [0xAB#8, 0xCD#8]).din.length ∧
    (serving.bits .co).wf = true ∧ InRange tc .co 2#16 7#16 ∧ ((7#16 : Word).toNat + 7) / 8 ≤ (envelope [0xFF#8]).din.length := by
  decide

theorem witness_CountZeroIsLegal :
    tc.start .hr ≤ (1#16 : Word).toNat ∧ (1#16 : Word).toNat ≤ tc.start .hr + tc.qty .hr ∧
    (11#16 : Word).toNat ≤ tc.start .hr + tc.qty .hr ∧ ¬ (12#16 : Word).toNat ≤ tc.start .hr + tc.qty .hr := by decide

theorem witness_ReadsSeeOnlyTheirSpace :
    serving.params = State.reset.params ∧ serving.bits .co = State.reset.bits .co ∧ serving.words .ir = State.reset.words .ir ∧
    serving ≠ State.reset := by decide

theorem witness_WordsMoveHighByteFirst : Memory.wf ([(1, 0x1234#16)] : Memory 16) = true ∧ 9 < 10 := by decide

theorem witness_RepeatedAccessIsIdempotent : serving.Sound := serving_inv.toSound

theorem witness_GetReqReturnsRequest : (envelope []).svc = true ∧ serving.svc = false := by decide

theorem witness_SetRespLoadsResponse :
    (envelope [1#8]).txBuf.wf = true ∧ (envelope [1#8]).svc = true ∧ (1#16 : Word).toNat ≤ tc.txBufSize ∧
    (1#16 : Word).toNat ≤ (envelope [1#8]).din.length ∧ serving.svc = false ∧ tc.txBufSize < (17#16 : Word).toNat ∧
    (envelope [1#8]).din.length < (16#16 : Word).toNat ∧ (16#16 : Word).toNat ≤ tc.txBufSize := by decide

theorem witness_CommandFrames : Instr.statRd ≠ .tcpPoll ∧ (∀ len, Instr.statRd ≠ .tcpSetResp len) ∧
    Instr.statRd ≠ .tcpGetReq ∧ ∀ a n, Instr.statRd ≠ .regWrCO a n := by simp

theorem witness_EngineCommandsFollowTheirRules :
    (envelope []).svc = true ∧ decode (⟨0x0000000000000011#64, []⟩ : Command).word = .ok .tcpGetReq ∧
    (∀ i, decode (⟨0x0000000500010401#64, []⟩ : Command).word ≠ .ok i) ∧ State.reset.svc = false := by
  refine ⟨rfl, by decide, fun i h => ?_, rfl⟩
  rw [show decode (⟨0x0000000500010401#64, []⟩ : Command).word = .error .reservedBits by decide] at h
  cases h

/-- A transaction of two actions ends in the second one's write, after the first one has read the slot. -/
theorem test_engineRun_order :
    (engineRun [.evRead, .evPut (some .execute)] { envelope [] with slot := some .frameReceived }).engineReads =
      [some .frameReceived] ∧
    (engineRun [.evPut (some .execute), .evRead] { envelope [] with slot := some .frameReceived }).engineReads =
      [some .execute] := by decide

theorem witness_EngineKeepsEnvelope : (envelope []).InEnvelope := envelope_inv

/-- The stub of P3 holds no write command. -/
theorem witness_EngineWritesOnlyByCommand :
    ∀ c a n, EngineOp.command c ∈ [EngineOp.command ⟨0x0000000000000011#64, []⟩, .evRead] →
      decode c.word ≠ .ok (writeInstr .hr a n) := by
  intro c a n h
  have hc : c = ⟨0x0000000000000011#64, []⟩ := by simpa using h
  have hd : decode 0x0000000000000011#64 = .ok .tcpGetReq := by decide
  rw [hc]
  simp only [hd, writeInstr]
  exact fun h => by cases h

/-- Answers whose readback differs in the gateway. -/
def mismatch : ChipAnswers :=
  { answers true true 0x00#8 0#16 [] with readback := { Config.defaultNetCfg with gateway := 1#32 } }

theorem witness_PollReadbackMismatch :
    mismatch = ({ State.reset with chip := [mismatch] } : State).chipAnswers ∧ State.reset.svc = false ∧
    ¬ SocketReady mismatch State.reset ∧ State.reset.sockValid = false ∧
    ∃ f ∈ State.reset.params.verifyFields, fieldAgrees mismatch.readback State.reset.netcfg f = false := by decide

theorem witness_PollLinkDropReleasesSocket :
    let a := answers true false 0x17#8 0#16 []
    a = (ready true false a).chipAnswers ∧ (ready true false a).svc = false ∧ SocketReady a (ready true false a) ∧
    a.linkUp = false ∧ ((ready true false a).linkUp = true ∨ (ready true false a).connected = true) ∧
    ((ready false true a).linkUp = true ∨ (ready false true a).connected = true) := by decide

/-- Every status of `PollStatusActions` is reached, with a held socket and after a re-initialisation. -/
theorem witness_PollStatusActions :
    (∀ sr ∈ [0x00#8, 0x13#8, 0x14#8, 0x1C#8, 0x42#8],
      let a := answers true true sr 0#16 []
      a = (ready true false a).chipAnswers ∧ (ready true false a).svc = false ∧ ReachesStatus a (ready true false a) ∧
      ReachesStatus a { State.reset with chip := [a] }) ∧
    statusOf tc 0x00#8 = .closed ∧ statusOf tc 0x13#8 = .init ∧ statusOf tc 0x14#8 = .listen ∧
    statusOf tc 0x1C#8 = .closeWait ∧ statusOf tc 0x42#8 = .other := by decide

theorem witness_PollEstablishedIdle :
    let a := answers true true 0x17#8 0#16 []
    a = (ready true false a).chipAnswers ∧ (ready true false a).svc = false ∧ ReachesStatus a (ready true false a) ∧
    statusOf tc a.status = .established ∧ a.rxReady = 0#16 := by decide

theorem witness_PollServesOneRequest : serving.svc = false ∧ OpensEnvelope serving.chipAnswers serving := by decide

theorem witness_ReceivedBytesReachTheBuffer :
    serving.Inv ∧ OpensEnvelope serving.chipAnswers serving ∧ 11 < min serving.chipAnswers.rxReady.toNat serving.params.rxBufSize ∧
    11 < serving.chipAnswers.recv.length ∧ min serving.chipAnswers.rxReady.toNat serving.params.rxBufSize ≤ 12 :=
  ⟨serving_inv, by decide, by decide, by decide, by decide⟩

/-- A poll that opens no envelope, for the statements that tell the two apart. -/
def idling : State := { serving with chip := [answers true true 0x14#8 12#16 request] }

theorem witness_PollRestoresModeAndSlot :
    serving.Inv ∧ OpensEnvelope serving.chipAnswers serving ∧ ¬ OpensEnvelope idling.chipAnswers idling ∧
    (envelope []).mode = .tcp ∧ (envelope []).svc = true ∧ serving.svc = false :=
  ⟨serving_inv, by decide, by decide, rfl, rfl, rfl⟩

theorem witness_PostsInsideEnvelopeAreLost : serving.Inv ∧ OpensEnvelope serving.chipAnswers serving :=
  ⟨serving_inv, by decide⟩

theorem witness_TxSentExactlyWhenSent : serving.svc = false ∧ OpensEnvelope serving.chipAnswers serving := by decide

theorem witness_KeepaliveLastOnEstablishedOnly :
    serving.svc = false ∧ (ReachesStatus serving.chipAnswers serving ∧
      statusOf serving.params serving.chipAnswers.status = .established) ∧
    ¬ (ReachesStatus idling.chipAnswers idling ∧ statusOf idling.params idling.chipAnswers.status = .established) := by
  decide

theorem witness_PollNeverReportsAnError :
    State.reset.svc = false ∧ ¬ SocketReady mismatch State.reset ∧
    ¬ ReadbackAgrees State.reset.params mismatch.readback State.reset.netcfg ∧
    SocketReady (answers true false 0x17#8 0#16 []) serving ∧ LinkDrops (answers true false 0x17#8 0#16 []) serving := by
  decide

theorem witness_PollFrames :
    serving.svc = false ∧ OpensEnvelope serving.chipAnswers serving ∧ ¬ OpensEnvelope idling.chipAnswers idling := by decide

/-- The state a poll leaves. -/
def polled (s : State) : State := tcpPoll s

/-- V-F1's run: the six polls of S6 from reset, the first one initialising the chip. -/
def run0 : State :=
  { State.reset with chip := [answers false true 0x00#8 0#16 [], answers true true 0x13#8 0#16 [],
      answers true true 0x14#8 0#16 [], answers true true 0x17#8 0#16 [], answers true true 0x1C#8 0#16 [],
      answers true true 0x00#8 0#16 []] }
def run1 : State := polled run0
def run2 : State := polled run1
def run3 : State := polled run2
def run4 : State := polled run3
def run5 : State := polled run4

theorem witness_ConnectedFollowsStatusSequence :
    run0.svc = false ∧ run0.connected = false ∧
    (∀ p ∈ [(run0, SockStatus.closed), (run1, .init), (run2, .listen), (run3, .established), (run4, .closeWait),
        (run5, .closed)],
      ReachesStatus p.1.chipAnswers p.1 ∧ (p.1.sockValid = true → p.1.chipAnswers.portActive = true) ∧
      statusOf p.1.params p.1.chipAnswers.status = p.2) ∧
    exec .tcpPoll run0 = .next run1 ∧ exec .tcpPoll run1 = .next run2 ∧ exec .tcpPoll run2 = .next run3 ∧
    exec .tcpPoll run3 = .next run4 ∧ exec .tcpPoll run4 = .next run5 ∧ exec .tcpPoll run5 = .next (polled run5) :=
  ⟨rfl, rfl, by decide, rfl, rfl, rfl, rfl, rfl, rfl⟩

theorem witness_InvariantHoldsAtReset : tc.wf = true ∧
    Launch.wf tc { Launch.empty with imageHR := [(9, 0x1234#16)], imageCO := [(2, 0xFF#8)] } = true ∧
    Launch.wf tc { Launch.empty with imageHR := [(10, 0x1234#16)] } = false := by decide

theorem witness_ResetValues : tc.wf = true := by decide

/-- A sound state whose next step is a whole poll. -/
def beforePoll : State := { serving with pending := [⟨0x0000000000000010#64, []⟩] }

theorem beforePoll_inv : beforePoll.Inv :=
  { serving_inv with params := serving_inv.params }

theorem witness_StepKeepsInvariant : beforePoll.Inv ∧ Completes (step beforePoll) := by
  refine ⟨beforePoll_inv, ?_⟩
  have h : decode 0x0000000000000010#64 = .ok .tcpPoll := by decide
  exact ⟨tcpPoll (beforePoll.takePending ⟨0x0000000000000010#64, []⟩ []), by rfl⟩

theorem witness_RunsStayBetweenEnvelopes : beforePoll.Inv := beforePoll_inv

end Sys2Proof.Tests
end

section
/-! STATUS, its snapshot, and SOCK_STATE at reset (10_state R41, R42, R46, R47; 41_tcp_lifecycle R156). -/

namespace Sys2Proof.Machine

/-! ### The status word -/

theorem getLsbD_flagAt {k : Nat} (hk : k < 16) (b : Bool) (j : Nat) :
    (flagAt k b).getLsbD j = (decide (j = k) && b) := by
  unfold flagAt
  cases b with
  | false => simp
  | true =>
    have hshift : 1#16 <<< k = BitVec.twoPow 16 k := (BitVec.twoPow_eq 16 k).symm
    rw [if_pos rfl, hshift, BitVec.getLsbD_twoPow]
    simp [hk, eq_comm]

/-- STATUS bit by bit: each flag at its bit of R41, and 0 at every other. -/
theorem getLsbD_statusWord (s : State) (j : Nat) :
    (statusWord s).getLsbD j =
      (decide (j = 0) && s.linkUp || decide (j = 1) && s.connected || decide (j = 2) && s.txEn ||
        decide (j = 3) && s.txSent || decide (j = 4) && s.rxEn || decide (j = 5) && s.rxRecv ||
        decide (j = 6) && s.initFailed || decide (j = 7) && s.sockValid ||
        decide (j = 8) && decide (s.mode = .tcp) || decide (j = 9) && s.svc) := by
  unfold statusWord
  simp only [BitVec.getLsbD_or, getLsbD_flagAt, Nat.reduceLT]

theorem getLsbD_statusWord_of_ge (s : State) {j : Nat} (hj : 10 ≤ j) : (statusWord s).getLsbD j = false := by
  have hne : ∀ k < 10, j ≠ k := fun k hk => by omega
  rw [getLsbD_statusWord]
  simp [hne]

theorem exec_statRd (s : State) : exec .statRd s = .next (s.respond .ok (snapshot s)) := rfl

/-- Settles O28: `statusWord` is the STATUS that the snapshot carries, read bit by bit. -/
theorem statRdReturnsSnapshot : Obligations.StatRdReturnsSnapshot := by
  refine ⟨by decide, fun s => ⟨statusWord s, exec_statRd s, ?_⟩⟩
  refine ⟨?_, ?_, ?_, ?_, ?_, ?_, ?_, ?_, ?_, ?_, fun _ => getLsbD_statusWord_of_ge s⟩
  all_goals
    rw [getLsbD_statusWord]
    simp

/-! ### SR_CODE both ways -/

/-- The codes of SR_CODE are distinct, so each entry is the one its code finds. -/
theorem statusOf_eq_of_mem {p : Params} (hnodup : (p.srCode.map Prod.fst).Nodup) {code : Byte} {n : SockStatus}
    (hmem : (code, n) ∈ p.srCode) : statusOf p code = n := by
  unfold statusOf
  split
  · next e hfind =>
    have hcode : e.1 = code := by simpa using List.find?_some hfind
    have he : e = (code, n) := List.inj_on_of_nodup_map hnodup (List.mem_of_find?_eq_some hfind) hmem hcode
    rw [he]
  · next hnone => simpa using List.find?_eq_none.mp hnone _ hmem

theorem closedCode_mem {p : Params} (hany : p.srCode.any (fun e => decide (e.2 = .closed)) = true) :
    (closedCode p, SockStatus.closed) ∈ p.srCode := by
  unfold closedCode
  split
  · next e hfind =>
    have hclosed : e.2 = .closed := by simpa using List.find?_some hfind
    exact hclosed ▸ List.mem_of_find?_eq_some hfind
  · next hnone =>
    obtain ⟨e, hmem, hclosed⟩ := List.any_eq_true.mp hany
    exact absurd hclosed (List.find?_eq_none.mp hnone e hmem)

theorem statusOf_closedCode {p : Params} (hwf : p.wf = true) : statusOf p (closedCode p) = .closed := by
  simp only [Params.wf, srCodeWf, Bool.and_eq_true, decide_eq_true_eq] at hwf
  obtain ⟨⟨_, hnodup, hany⟩, _⟩ := hwf
  exact statusOf_eq_of_mem hnodup (closedCode_mem hany)

/-- Settles O47: every field is the one `State.resetWith` writes, and the code it takes for SOCK_STATE decodes to
CLOSED. -/
theorem resetValues : Obligations.ResetValues := by
  intro p l
  have hclosed : p.wf = true → statusOf p (closedCode p) = .closed := statusOf_closedCode
  exact ⟨rfl, rfl, rfl, rfl, rfl, rfl, rfl, rfl, hclosed, rfl, rfl, rfl, rfl, rfl, rfl, rfl, rfl, rfl, rfl, rfl, rfl,
    rfl, rfl⟩

end Sys2Proof.Machine
end

section
/-! Where an element lies in storage, and the order in which a word's bytes move (10_state R51, R55;
40_register_store R101, R107, R108). -/

namespace Sys2Proof.Machine

/-! ### The element index -/

/-- The index that the address decoder answers is counted from START. -/
theorem addressDecode_index {p : Params} {sp : Space} {a n : Word} {idx : Nat}
    (h : addressDecode p sp a n = some idx) : idx = a.toNat - p.start sp := by
  rw [addressDecode_eq] at h
  split at h
  · exact (Option.some.inj h).symm
  · cases h

/-- Settles O14: the index and its bound are the address decoder's; the two writes replace one element each by the
read-after-write laws of storage. -/
theorem elementLayout : Obligations.ElementLayout := by
  refine ⟨fun p sp a n idx h => ⟨addressDecode_index h, fun hn => ?_⟩, fun _ => ⟨rfl, rfl, rfl, rfl⟩,
    fun _ _ => rfl, fun _ i v j hm => readBit_writeBit hm i v j, fun _ i v j hm => Memory.read_write hm i v j⟩
  have hbound : idx + n.toNat ≤ p.qty sp := addressDecode_bound h
  omega

/-! ### The bytes of a word -/

/-- Two bytes are what a word moves as exactly when they make that word. -/
theorem wordBytes_eq_iff (w : Word) (hi lo : Byte) : wordBytes w = [hi, lo] ↔ wordOf hi lo = w := by
  constructor
  · intro h
    obtain ⟨hhi, hlo⟩ : w.extractLsb' 8 8 = hi ∧ w.extractLsb' 0 8 = lo := by simpa [wordBytes] using h
    rw [← hhi, ← hlo, wordOf_wordBytes]
  · rintro rfl
    exact wordBytes_wordOf hi lo

/-- The high and the low byte of a word made of two bytes. -/
theorem extractLsb'_wordOf (hi lo : Byte) :
    (wordOf hi lo).extractLsb' 8 8 = hi ∧ (wordOf hi lo).extractLsb' 0 8 = lo := by
  simpa [wordBytes] using wordBytes_wordOf hi lo

/-- Word `k` of a word write is made of the stream's bytes `2k` and `2k+1` (R108). -/
theorem read_wordWrite_add {m : Memory 16} (hm : m.wf = true) (idx : Nat) (d : List Byte) {n k : Nat} (hk : k < n) :
    (wordWrite m idx d n).read (idx + k) = wordOf (d.getD (2 * k) 0#8) (d.getD (2 * k + 1) 0#8) := by
  rw [read_wordWrite hm, if_pos (by omega), Nat.add_sub_cancel_left]

/-- Settles O25: a read moves each word's two bytes in order, and a write makes each word of two bytes in the same
order. -/
theorem wordsMoveHighByteFirst : Obligations.WordsMoveHighByteFirst := by
  refine ⟨by decide, fun _ => rfl, wordBytes_eq_iff, fun m idx n _ hk => getD_wordRead m idx n hk, ?_⟩
  intro m idx n k d hm hk
  rw [read_wordWrite_add hm idx d hk]
  exact extractLsb'_wordOf _ _

end Sys2Proof.Machine
end

section
/-! Which words are valid: the decoder accepts exactly the encodings of the twelve commands, and so does the opcode
map (30_encoding R71, R75, R76). -/

namespace Sys2Proof

/-! ### A word from its fields (R71) -/

theorem low_assemble (low addr cnt : Word) : (assemble low addr cnt).extractLsb' 0 16 = low := by
  refine BitVec.eq_of_getLsbD_eq fun k hk => ?_
  rw [BitVec.getLsbD_extractLsb', getLsbD_assemble, if_pos (by omega)]
  simp [hk]

/-- A word whose RSV1 is zero is assembled from its low half word, its ADDR and its CNT. -/
theorem assemble_fields {w : Cmd} (hrsv1 : Cmd.rsv1 w = 0#16) :
    assemble (w.extractLsb' 0 16) (Cmd.addr w) (Cmd.cnt w) = w := by
  refine BitVec.eq_of_getLsbD_eq fun k hk => ?_
  have hfield : ∀ base, base ≤ k → k < base + 16 → (w.extractLsb' base 16).getLsbD (k - base) = w.getLsbD k := by
    intro base hle hlt
    rw [BitVec.getLsbD_extractLsb', Nat.add_sub_cancel' hle]
    simp [show k - base < 16 by omega]
  rw [getLsbD_assemble]
  split
  · exact hfield 0 (by omega) (by omega)
  split
  · exact hfield 16 (by omega) (by omega)
  split
  · exact hfield 32 (by omega) (by omega)
  · rw [← hfield 48 (by omega) (by omega), ← Cmd.rsv1, hrsv1]
    simp

/-- The low half word is RSV0, SP and OPC. -/
theorem low_eq_append (w : Cmd) : w.extractLsb' 0 16 = Cmd.rsv0 w ++ Cmd.sp w ++ Cmd.opc w := by
  have hhigh : Cmd.rsv0 w ++ Cmd.sp w = w.extractLsb' 8 (6 + 2) :=
    BitVec.extractLsb'_append_extractLsb'_eq_extractLsb' rfl
  rw [hhigh]
  exact (BitVec.extractLsb'_append_extractLsb'_eq_extractLsb' (start₁ := 0) (len₁ := 8) rfl).symm

/-! ### The decoder accepts exactly the encodings -/

theorem sp_cases (sp : BitVec 2) : sp = 0#2 ∨ sp = 1#2 ∨ sp = 2#2 ∨ sp = 3#2 := by
  revert sp
  decide

/-- SP stands in the word of REG.RD where the decoder reads it (R73, R75). -/
theorem encode_decodeRead (sp : BitVec 2) (a n : Word) :
    encode (decodeRead sp a n) = assemble (0#6 ++ sp ++ 0x01#8) a n := by
  rcases sp_cases sp with rfl | rfl | rfl | rfl <;> rfl

/-- SP stands in the word of REG.WR where the decoder reads it (R73, R75). -/
theorem encode_decodeWrite (sp : BitVec 2) (a n : Word) :
    encode (decodeWrite sp a n) = assemble (0#6 ++ sp ++ 0x02#8) a n := by
  rcases sp_cases sp with rfl | rfl | rfl | rfl <;> rfl

/-- The decoder accepts only encodings: each branch of R76 fixes every field that its command does not leave free. -/
theorem encode_of_decode {w : Cmd} {i : Instr} (h : decode w = .ok i) : encode i = w := by
  unfold decode at h
  split at h
  · cases h
  next hopc =>
  split at h
  · cases h
  next hrsv =>
  obtain ⟨hrsv0, hrsv1⟩ : Cmd.rsv0 w = 0#6 ∧ Cmd.rsv1 w = 0#16 := by simpa using hrsv
  have hw : ∀ {opc}, Cmd.opc w = opc → assemble (0#6 ++ Cmd.sp w ++ opc) (Cmd.addr w) (Cmd.cnt w) = w := by
    rintro _ rfl
    have hfields := assemble_fields hrsv1
    rwa [low_eq_append, hrsv0] at hfields
  split at h
  next hread =>
    cases h
    exact (encode_decodeRead _ _ _).trans (hw hread)
  split at h
  next hwrite =>
    cases h
    exact (encode_decodeWrite _ _ _).trans (hw hwrite)
  split at h
  · cases h
  next hsp =>
  split at h
  · cases h
  next hcnt =>
  rw [not_not.mp hsp, not_not.mp hcnt] at hw
  split at h
  next hsetResp =>
    cases h
    exact hw hsetResp
  split at h
  · cases h
  next haddr =>
  rw [not_not.mp haddr] at hw
  split at h
  next hpoll =>
    cases h
    exact hw hpoll
  split at h
  next hgetReq =>
    cases h
    exact hw hgetReq
  · cases h
    have hstatRd : Cmd.opc w = 0x20#8 := by simp_all [opcodes]
    exact hw hstatRd

theorem decode_encode (i : Instr) : decode (encode i) = .ok i := by
  cases i <;> simp [encode, decode, opcodes, decodeRead, decodeWrite]

/-- R76 as an equivalence. -/
theorem decode_ok_iff {w : Cmd} {i : Instr} : decode w = .ok i ↔ encode i = w :=
  ⟨encode_of_decode, fun h => h ▸ decode_encode i⟩

/-! ### The rows of the opcode map match exactly the encodings -/

/-- A field that the mask covers is, in every word that matches, the pattern's. -/
theorem extractLsb'_eq_of_match {w mask pattern : Cmd} (h : w &&& mask = pattern) {start len : Nat}
    (hmask : mask.extractLsb' start len = BitVec.allOnes len) :
    w.extractLsb' start len = pattern.extractLsb' start len := by
  rw [← h, BitVec.extractLsb'_and, hmask, BitVec.and_allOnes]

/-- Under a mask that covers CMD[15:0] and RSV1, only ADDR and CNT are left free. -/
theorem assemble_of_match {w mask : Cmd} {low addr cnt : Word} (h : w &&& mask = assemble low addr cnt)
    (hlow : mask.extractLsb' 0 16 = BitVec.allOnes 16) (hhigh : mask.extractLsb' 48 16 = BitVec.allOnes 16) :
    assemble low (Cmd.addr w) (Cmd.cnt w) = w := by
  have hrsv1 : Cmd.rsv1 w = 0#16 := (extractLsb'_eq_of_match h hhigh).trans (rsv1_assemble low addr cnt)
  have hw := assemble_fields hrsv1
  rwa [extractLsb'_eq_of_match h hlow, low_assemble] at hw

/-- A REG row leaves ADDR and CNT free. -/
theorem assemble_of_match_reg {w : Cmd} {low : Word} (h : w &&& 0xFFFF00000000FFFF#64 = assemble low 0#16 0#16) :
    assemble low (Cmd.addr w) (Cmd.cnt w) = w :=
  assemble_of_match h (by decide) (by decide)

/-- The row of TCP.SETRESP leaves LEN free. -/
theorem assemble_of_match_setResp {w : Cmd} {low : Word}
    (h : w &&& 0xFFFFFFFF0000FFFF#64 = assemble low 0#16 0#16) : assemble low (Cmd.addr w) 0#16 = w := by
  have hcnt : Cmd.cnt w = 0#16 := (extractLsb'_eq_of_match h (by decide)).trans (cnt_assemble low 0#16 0#16)
  have hw := assemble_of_match h (by decide) (by decide)
  rwa [hcnt] at hw

/-- The other rows leave nothing free. -/
theorem eq_of_match_all {w pattern : Cmd} (h : w &&& 0xFFFFFFFFFFFFFFFF#64 = pattern) : pattern = w :=
  h.symm.trans BitVec.and_allOnes

/-- A word that a row matches is an encoding. -/
theorem exists_encode_of_match {w : Cmd} {r : OpcodeRow} (hr : r ∈ opcodeTable) (h : w &&& r.mask = r.pattern) :
    ∃ i, encode i = w := by
  simp only [opcodeTable, List.cons_append, List.nil_append, List.mem_cons, List.not_mem_nil, or_false] at hr
  rcases hr with rfl | rfl | rfl | rfl | rfl | rfl | rfl | rfl | rfl | rfl | rfl | rfl
  · exact ⟨.regRdDI _ _, assemble_of_match_reg h⟩
  · exact ⟨.regRdCO _ _, assemble_of_match_reg h⟩
  · exact ⟨.regRdIR _ _, assemble_of_match_reg h⟩
  · exact ⟨.regRdHR _ _, assemble_of_match_reg h⟩
  · exact ⟨.regWrDI _ _, assemble_of_match_reg h⟩
  · exact ⟨.regWrCO _ _, assemble_of_match_reg h⟩
  · exact ⟨.regWrIR _ _, assemble_of_match_reg h⟩
  · exact ⟨.regWrHR _ _, assemble_of_match_reg h⟩
  · exact ⟨.tcpPoll, eq_of_match_all h⟩
  · exact ⟨.tcpGetReq, eq_of_match_all h⟩
  · exact ⟨.tcpSetResp _, assemble_of_match_setResp h⟩
  · exact ⟨.statRd, eq_of_match_all h⟩

/-- Every command has its row. -/
theorem Laws.TableRow.all (i : Instr) : Laws.TableRow.Statement i := by
  cases i with
  | regRdDI a n => exact Laws.TableRow.regRdDI a n
  | regRdCO a n => exact Laws.TableRow.regRdCO a n
  | regRdIR a n => exact Laws.TableRow.regRdIR a n
  | regRdHR a n => exact Laws.TableRow.regRdHR a n
  | regWrDI a n => exact Laws.TableRow.regWrDI a n
  | regWrCO a n => exact Laws.TableRow.regWrCO a n
  | regWrIR a n => exact Laws.TableRow.regWrIR a n
  | regWrHR a n => exact Laws.TableRow.regWrHR a n
  | tcpPoll => exact Laws.TableRow.tcpPoll
  | tcpGetReq => exact Laws.TableRow.tcpGetReq
  | tcpSetResp len => exact Laws.TableRow.tcpSetResp len
  | statRd => exact Laws.TableRow.statRd

/-- Every row fixes CMD[15:0], each to a value of its own. -/
theorem opcodeTable_low : ∀ r ∈ opcodeTable, r.mask.extractLsb' 0 16 = BitVec.allOnes 16 ∧
    ∀ r' ∈ opcodeTable, r.pattern.extractLsb' 0 16 = r'.pattern.extractLsb' 0 16 → r = r' := by
  decide

theorem row_eq_of_match {w : Cmd} {r r' : OpcodeRow} (hr : r ∈ opcodeTable) (hr' : r' ∈ opcodeTable)
    (h : w &&& r.mask = r.pattern) (h' : w &&& r'.mask = r'.pattern) : r = r' := by
  obtain ⟨hmask, hinj⟩ := opcodeTable_low r hr
  obtain ⟨hmask', -⟩ := opcodeTable_low r' hr'
  exact hinj r' hr' ((extractLsb'_eq_of_match h hmask).symm.trans (extractLsb'_eq_of_match h' hmask'))

/-- Settles O3: decoder and opcode map accept the same words, the encodings; the row of a command's mnemonic is one
that matches its encoding, and CMD[15:0] tells the rows apart. -/
theorem validWordsMatchOneRow : Obligations.ValidWordsMatchOneRow := by
  have hrow : ∀ (w : Cmd) (i : Instr), decode w = .ok i →
      encode i = w ∧ ∃ r ∈ opcodeTable, w &&& r.mask = r.pattern ∧ r.mnemonic = i.mnemonic := by
    intro w i h
    obtain rfl := encode_of_decode h
    obtain ⟨r, hmem, hmnemonic, hmatch⟩ := Laws.TableRow.all i
    exact ⟨rfl, r, hmem, hmatch, hmnemonic⟩
  refine ⟨fun w => ⟨?_, ?_⟩, hrow, fun w r hr r' hr' h h' => row_eq_of_match hr hr' h h'⟩
  · rintro ⟨i, h⟩
    obtain ⟨-, r, hmem, hmatch, -⟩ := hrow w i h
    exact ⟨r, hmem, hmatch⟩
  · rintro ⟨r, hr, h⟩
    obtain ⟨i, hi⟩ := exists_encode_of_match hr h
    exact ⟨i, decode_ok_iff.mpr hi⟩

end Sys2Proof
end

section
/-! The answer of every command: the first error cause that applies, else OK with the data of R81 (30_encoding R77 to
R81; 40_register_store R102; 41_tcp_lifecycle R152). -/

namespace Sys2Proof.Machine

/-! ### The error causes, in the order of R80 -/

/-- The error cause of REG.RD. -/
def readError (s : State) (sp : Space) (a n : Word) : Option Status :=
  if InRange s.params sp a n then none else some .noSuchRegister

/-- The first error cause of REG.WR, which needs `need` bytes of data. -/
def writeError (s : State) (sp : Space) (a n : Word) (need : Nat) : Option Status :=
  if ¬ InRange s.params sp a n then some .noSuchRegister
  else if s.din.length < need then some .dataShort else none

/-- The first error cause that applies to a command in a state (R80). -/
def firstError : Instr → State → Option Status
  | .regRdDI a n, s => readError s .di a n
  | .regRdCO a n, s => readError s .co a n
  | .regRdIR a n, s => readError s .ir a n
  | .regRdHR a n, s => readError s .hr a n
  | .regWrDI a n, s => writeError s .di a n (ceil8 n.toNat)
  | .regWrCO a n, s => writeError s .co a n (ceil8 n.toNat)
  | .regWrIR a n, s => writeError s .ir a n (2 * n.toNat)
  | .regWrHR a n, s => writeError s .hr a n (2 * n.toNat)
  | .tcpPoll, s => if s.svc then some .illegalCommand else none
  | .tcpGetReq, s => if s.svc then none else some .illegalCommand
  | .tcpSetResp len, s =>
    if ¬ s.svc then some .illegalCommand
    else if s.params.txBufSize < len.toNat then some .respOverflow
    else if s.din.length < len.toNat then some .dataShort else none
  | .statRd, _ => none

/-- The length of DOUT with OK (R81). -/
def okLength : Instr → State → Nat
  | .regRdDI _ n, _ | .regRdCO _ n, _ => ceil8 n.toNat
  | .regRdIR _ n, _ | .regRdHR _ n, _ => 2 * n.toNat
  | .tcpGetReq, s => s.rxLen.toNat
  | .statRd, _ => 8
  | .regWrDI _ _, _ | .regWrCO _ _, _ | .regWrIR _ _, _ | .regWrHR _ _, _ | .tcpPoll, _ | .tcpSetResp _, _ => 0

/-! ### Answers -/

/-- `t` answers a command performed in `s`: with an error cause by the rejection alone, without one by OK and `len`
bytes after the earlier responses and the `nested` ones. -/
def Answers (s : State) (nested : List Response) (len : Nat) : Option Status → State → Prop
  | some st, t => st ≠ .ok ∧ t = s.reject st
  | none, t => ∃ dout, dout.length = len ∧ t.responses = s.responses ++ nested ++ [⟨.ok, dout⟩]

theorem Answers.reject {s : State} {nested : List Response} {len : Nat} {st : Status} (h : st ≠ .ok) :
    Answers s nested len (some st) (s.reject st) := ⟨h, rfl⟩

theorem Answers.respond {s t : State} {nested : List Response} {dout : List Byte} {len : Nat}
    (ht : t.responses = s.responses ++ nested) (hlen : dout.length = len) :
    Answers s nested len none (t.respond .ok dout) := ⟨dout, hlen, by rw [State.respond_responses, ht]⟩

/-- The case of every command but a poll: no command runs inside it. -/
theorem Answers.respond_alone {s t : State} {dout : List Byte} {len : Nat}
    (ht : t.responses = s.responses) (hlen : dout.length = len) :
    Answers s [] len none (t.respond .ok dout) := .respond (by rw [ht, List.append_nil]) hlen

theorem readBits_answers (sp : BitSpace) (a n : Word) (s : State) :
    Answers s [] (ceil8 n.toNat) (readError s sp.space a n) (readBits sp a n s) := by
  unfold readError readBits
  rw [addressDecode_eq]
  split
  · exact .respond_alone rfl (length_bitRead _ _ _)
  · exact .reject (by decide)

theorem readWords_answers (sp : WordSpace) (a n : Word) (s : State) :
    Answers s [] (2 * n.toNat) (readError s sp.space a n) (readWords sp a n s) := by
  unfold readError readWords
  rw [addressDecode_eq]
  split
  · exact .respond_alone rfl (length_wordRead _ _ _)
  · exact .reject (by decide)

theorem writeBits_answers (sp : BitSpace) (a n : Word) (s : State) :
    Answers s [] 0 (writeError s sp.space a n (ceil8 n.toNat)) (writeBits sp a n s) := by
  unfold writeError writeBits
  rw [addressDecode_eq, ite_not]
  split
  · dsimp only
    split
    · exact .reject (by decide)
    · exact .respond_alone (State.setBits_responses _ _ _) rfl
  · exact .reject (by decide)

theorem writeWords_answers (sp : WordSpace) (a n : Word) (s : State) :
    Answers s [] 0 (writeError s sp.space a n (2 * n.toNat)) (writeWords sp a n s) := by
  unfold writeError writeWords
  rw [addressDecode_eq, ite_not]
  split
  · dsimp only
    split
    · exact .reject (by decide)
    · exact .respond_alone (State.setWords_responses _ _ _) rfl
  · exact .reject (by decide)

theorem tcpGetReq_answers (s : State) :
    Answers s [] s.rxLen.toNat (firstError .tcpGetReq s) (tcpGetReq s) := by
  rw [firstError, tcpGetReq]
  split
  · exact .respond_alone rfl (Memory.length_readBytes _ _)
  · exact .reject (by decide)

theorem tcpSetResp_answers (len : Word) (s : State) :
    Answers s [] 0 (firstError (.tcpSetResp len) s) (tcpSetResp len s) := by
  rw [firstError, tcpSetResp]
  rw [ite_not]
  split
  · split
    · exact .reject (by decide)
    · split
      · exact .reject (by decide)
      · exact .respond_alone rfl rfl
  · exact .reject (by decide)

/-- A poll's own response comes after those of the engine's commands inside it (R70). -/
theorem tcpPoll_answers (s : State) : ∃ nested, Answers s nested 0 (firstError .tcpPoll s) (tcpPoll s) := by
  obtain ⟨nested, hnested⟩ := pollSteps_responses s.chipAnswers s.drawChip
  refine ⟨nested, ?_⟩
  rw [firstError, tcpPoll]
  split
  · exact .reject (by decide)
  · exact .respond hnested rfl

/-- Every command in every state: it completes, and answers as R78 to R81 say. -/
theorem exec_answers (i : Instr) (s : State) : ∃ t nested, exec i s = .next t ∧ (i ≠ .tcpPoll → nested = []) ∧
    Answers s nested (okLength i s) (firstError i s) t := by
  cases i with
  | regRdDI a n => exact ⟨_, [], rfl, fun _ => rfl, readBits_answers .di a n s⟩
  | regRdCO a n => exact ⟨_, [], rfl, fun _ => rfl, readBits_answers .co a n s⟩
  | regRdIR a n => exact ⟨_, [], rfl, fun _ => rfl, readWords_answers .ir a n s⟩
  | regRdHR a n => exact ⟨_, [], rfl, fun _ => rfl, readWords_answers .hr a n s⟩
  | regWrDI a n => exact ⟨_, [], rfl, fun _ => rfl, writeBits_answers .di a n s⟩
  | regWrCO a n => exact ⟨_, [], rfl, fun _ => rfl, writeBits_answers .co a n s⟩
  | regWrIR a n => exact ⟨_, [], rfl, fun _ => rfl, writeWords_answers .ir a n s⟩
  | regWrHR a n => exact ⟨_, [], rfl, fun _ => rfl, writeWords_answers .hr a n s⟩
  | tcpPoll =>
    obtain ⟨nested, h⟩ := tcpPoll_answers s
    exact ⟨_, nested, rfl, fun hne => absurd rfl hne, h⟩
  | tcpGetReq => exact ⟨_, [], rfl, fun _ => rfl, tcpGetReq_answers s⟩
  | tcpSetResp len => exact ⟨_, [], rfl, fun _ => rfl, tcpSetResp_answers len s⟩
  | statRd => exact ⟨_, [], rfl, fun _ => rfl, .respond_alone rfl rfl⟩

/-- A command with an error cause does nothing but report the first (R79, R80). -/
theorem exec_of_firstError {i : Instr} {s : State} {st : Status} (h : firstError i s = some st) :
    exec i s = .next (s.reject st) := by
  obtain ⟨t, nested, hexec, -, hans⟩ := exec_answers i s
  rw [h] at hans
  obtain ⟨-, rfl⟩ := hans
  exact hexec

/-- A reserved word at the port: the command is taken and rejected, after the outside writes at the step's start
(R77). -/
theorem step_of_reserved {s : State} {c : Command} {rest : List Command} (hpending : s.pending = c :: rest)
    (hreserved : ∀ i, decode c.word ≠ .ok i) :
    step s = .next { s.outside with pending := rest, din := c.din,
                                    responses := s.responses ++ [⟨.illegalCommand, []⟩] } := by
  have hfetch : s.outside.fetch = some (c, s.outside.takePending c rest) := by
    rw [State.fetch, State.outside_pending, hpending]
  rw [step, hfetch, ← State.outside_responses s]
  cases hdecode : decode c.word with
  | error _ => simp only [hdecode]; rfl
  | ok i => exact absurd hdecode (hreserved i)

/-- Settles O9: an error cause and its absence are the two cases of `exec_answers`; a reserved word never reaches
`exec`. -/
theorem firstErrorReportedWithoutEffect : Obligations.FirstErrorReportedWithoutEffect := by
  refine ⟨⟨rfl, rfl, rfl, rfl, rfl, fun st => by cases st <;> decide⟩, fun _ _ _ => step_of_reserved,
    fun i s e he => ?_⟩
  have hfirst : e = firstError i s := he.trans (by cases i <;> rfl)
  subst hfirst
  refine ⟨fun st hst => exec_of_firstError hst, fun hnone => ?_⟩
  obtain ⟨t, nested, hexec, hnested, hans⟩ := exec_answers i s
  rw [hnone] at hans
  obtain ⟨dout, -, hresponses⟩ := hans
  exact ⟨t, nested, dout, hexec, hresponses, hnested⟩

/-- Settles O10: the response is the rejection's where an error cause applies, else the last one of
`exec_answers`. -/
theorem responseLengths : Obligations.ResponseLengths := by
  intro i s
  obtain ⟨t, nested, hexec, hnested, hans⟩ := exec_answers i s
  cases hfirst : firstError i s with
  | some st =>
    rw [hfirst] at hans
    obtain ⟨hne, rfl⟩ := hans
    exact ⟨_, [], ⟨st, []⟩, hexec, by simp, fun _ => rfl, rfl, fun _ => rfl, fun hok => absurd hok hne⟩
  | none =>
    rw [hfirst] at hans
    obtain ⟨dout, hlen, hresponses⟩ := hans
    refine ⟨t, nested, ⟨.ok, dout⟩, hexec, hresponses, hnested, rfl, fun hne => absurd rfl hne, fun _ => ?_⟩
    rw [hlen]
    cases i <;> rfl

/-- Settles O7: ILLEGAL_COMMAND is the first error cause of each command that is illegal in the state. -/
theorem illegalCommandsHaveNoEffect : Obligations.IllegalCommandsHaveNoEffect := by
  refine ⟨rfl, fun _ _ _ => step_of_reserved, fun s hsvc => ?_, fun s len hsvc => ?_, fun s hsvc => ?_⟩
  all_goals exact exec_of_firstError (by simp [firstError, hsvc])

end Sys2Proof.Machine
end

section
/-! The register commands: which requests pass, what each command answers, and what it leaves (40_register_store R101
to R119, R170). -/

namespace Sys2Proof.Machine

/-! ### The command words (R75) -/

theorem encode_readInstr (sp : Space) (a n : Word) : encode (readInstr sp a n) = 0#16 ++ n ++ a ++ readLow sp := by
  cases sp <;> rfl

theorem encode_writeInstr (sp : Space) (a n : Word) : encode (writeInstr sp a n) = 0#16 ++ n ++ a ++ writeLow sp := by
  cases sp <;> rfl

/-- A register space is a bit space or a word space (R22). -/
theorem space_cases (sp : Space) : (∃ bs : BitSpace, sp = bs.space) ∨ ∃ ws : WordSpace, sp = ws.space := by
  cases sp with
  | di => exact .inl ⟨.di, rfl⟩
  | co => exact .inl ⟨.co, rfl⟩
  | ir => exact .inr ⟨.ir, rfl⟩
  | hr => exact .inr ⟨.hr, rfl⟩

/-! ### The arrays under the state's updates -/

@[simp] theorem State.accept_bits (c : Command) (s : State) (sp : BitSpace) : (s.accept c).bits sp = s.bits sp := by
  cases sp <;> rfl

@[simp] theorem State.accept_words (c : Command) (s : State) (sp : WordSpace) :
    (s.accept c).words sp = s.words sp := by
  cases sp <;> rfl

theorem State.setBits_self (s : State) (sp : BitSpace) : s.setBits sp (s.bits sp) = s := by
  cases sp <;> rfl

theorem State.setWords_self (s : State) (sp : WordSpace) : s.setWords sp (s.words sp) = s := by
  cases sp <;> rfl

theorem State.setBits_respond (s : State) (sp : BitSpace) (m : Memory 8) (st : Status) (dout : List Byte) :
    (s.setBits sp m).respond st dout = { s.setBits sp m with responses := s.responses ++ [⟨st, dout⟩] } := by
  rw [State.respond, State.setBits_responses]

theorem State.setWords_respond (s : State) (sp : WordSpace) (m : Memory 16) (st : Status) (dout : List Byte) :
    (s.setWords sp m).respond st dout = { s.setWords sp m with responses := s.responses ++ [⟨st, dout⟩] } := by
  rw [State.respond, State.setWords_responses]

/-! ### Which requests pass (R101) -/

theorem exists_addressDecode_iff (p : Params) (sp : Space) (a n : Word) :
    (∃ idx, addressDecode p sp a n = some idx) ↔ InRange p sp a n := by
  constructor
  · rintro ⟨idx, h⟩
    by_contra hr
    rw [addressDecode_of_not hr] at h
    cases h
  · exact fun hr => ⟨_, addressDecode_of_inRange hr⟩

/-! ### Rejections (R102, R109, R170) -/

theorem firstError_readInstr (sp : Space) (a n : Word) (s : State) :
    firstError (readInstr sp a n) s = readError s sp a n := by
  cases sp <;> rfl

theorem firstError_writeInstr (sp : Space) (a n : Word) (s : State) :
    firstError (writeInstr sp a n) s = writeError s sp a n (dinNeeded (writeInstr sp a n)) := by
  cases sp <;> rfl

theorem exec_readInstr_of_not_inRange {sp : Space} {a n : Word} {s : State} (h : ¬ InRange s.params sp a n) :
    exec (readInstr sp a n) s = .next (s.reject .noSuchRegister) :=
  exec_of_firstError (by rw [firstError_readInstr, readError, if_neg h])

theorem exec_writeInstr_of_not_inRange {sp : Space} {a n : Word} {s : State} (h : ¬ InRange s.params sp a n) :
    exec (writeInstr sp a n) s = .next (s.reject .noSuchRegister) :=
  exec_of_firstError (by rw [firstError_writeInstr, writeError, if_pos h])

theorem exec_writeInstr_of_short {sp : Space} {a n : Word} {s : State} (h : InRange s.params sp a n)
    (hshort : s.din.length < dinNeeded (writeInstr sp a n)) :
    exec (writeInstr sp a n) s = .next (s.reject .dataShort) :=
  exec_of_firstError (by rw [firstError_writeInstr, writeError, if_neg (not_not.mpr h), if_pos hshort])

theorem dinNeeded_writeInstr_bits (sp : BitSpace) (a n : Word) :
    dinNeeded (writeInstr sp.space a n) = ceil8 n.toNat := by
  cases sp <;> rfl

theorem dinNeeded_writeInstr_words (sp : WordSpace) (a n : Word) :
    dinNeeded (writeInstr sp.space a n) = 2 * n.toNat := by
  cases sp <;> rfl

/-! ### Requests that pass: the whole next state (R110 to R117) -/

theorem exec_readInstr_bits {sp : BitSpace} {a n : Word} {s : State} (h : InRange s.params sp.space a n) :
    exec (readInstr sp.space a n) s =
      .next (s.respond .ok (bitRead (s.bits sp) (a.toNat - s.params.start sp.space) n.toNat)) := by
  have hexec : exec (readInstr sp.space a n) s = .next (readBits sp a n s) := by cases sp <;> rfl
  rw [hexec, readBits, addressDecode_of_inRange h]

theorem exec_readInstr_words {sp : WordSpace} {a n : Word} {s : State} (h : InRange s.params sp.space a n) :
    exec (readInstr sp.space a n) s =
      .next (s.respond .ok (wordRead (s.words sp) (a.toNat - s.params.start sp.space) n.toNat)) := by
  have hexec : exec (readInstr sp.space a n) s = .next (readWords sp a n s) := by cases sp <;> rfl
  rw [hexec, readWords, addressDecode_of_inRange h]

theorem exec_writeInstr_bits {sp : BitSpace} {a n : Word} {s : State} (h : InRange s.params sp.space a n)
    (hdin : ceil8 n.toNat ≤ s.din.length) :
    exec (writeInstr sp.space a n) s =
      .next ((s.setBits sp
        (bitWrite (s.bits sp) (a.toNat - s.params.start sp.space) n.toNat s.din)).respond .ok []) := by
  have hexec : exec (writeInstr sp.space a n) s = .next (writeBits sp a n s) := by cases sp <;> rfl
  rw [hexec, writeBits, addressDecode_of_inRange h]
  simp only [Nat.not_lt.mpr hdin, if_false]

theorem exec_writeInstr_words {sp : WordSpace} {a n : Word} {s : State} (h : InRange s.params sp.space a n)
    (hdin : 2 * n.toNat ≤ s.din.length) :
    exec (writeInstr sp.space a n) s =
      .next ((s.setWords sp
        (wordWrite (s.words sp) (a.toNat - s.params.start sp.space) s.din n.toNat)).respond .ok []) := by
  have hexec : exec (writeInstr sp.space a n) s = .next (writeWords sp a n s) := by cases sp <;> rfl
  rw [hexec, writeWords, addressDecode_of_inRange h]
  simp only [Nat.not_lt.mpr hdin, if_false]

/-! ### Range and rejection (R101, R102, R170) -/

/-- Settles O12: the decoder passes exactly the requests in range, with the index and bound of R101, and both
commands reject the rest. -/
theorem addressDecoderExact : Obligations.AddressDecoderExact := by
  intro p sp a n
  refine ⟨exists_addressDecode_iff p sp a n, fun idx h => ?_, ?_⟩
  · have hbound : idx + n.toNat ≤ p.qty sp := addressDecode_bound h
    exact ⟨addressDecode_index h, by omega, fun k hk => by omega⟩
  · rintro s rfl hnone
    have hr : ¬ InRange s.params sp a n := fun h => by
      rw [addressDecode_of_inRange h] at hnone
      cases hnone
    exact ⟨exec_readInstr_of_not_inRange hr, exec_writeInstr_of_not_inRange hr⟩

/-- Settles O13: a request below START or ending past START + QTY is not in range. -/
theorem outOfRangeRejectedWhole : Obligations.OutOfRangeRejectedWhole := by
  refine ⟨rfl, fun s sp a n hout => ?_⟩
  have hr : ¬ InRange s.params sp a n := fun h => by omega
  exact ⟨exec_readInstr_of_not_inRange hr, exec_writeInstr_of_not_inRange hr⟩

/-! ### Reads (R103, R104, R107) -/

/-- Settles O15: in range the answer is the bit read, whose bits are the elements; out of range it is the
rejection. -/
theorem bitReadReturnsElements : Obligations.BitReadReturnsElements := by
  refine ⟨fun sp => encode_readInstr sp.space, fun s sp a n => ⟨fun h => ?_, exec_readInstr_of_not_inRange⟩⟩
  refine ⟨_, exec_readInstr_bits h, length_bitRead _ _ _, fun j hj k hk => ?_⟩
  rw [length_bitRead] at hj
  exact getLsbD_bitRead _ _ _ hj hk

/-- Settles O16: in range the answer is the word read, two bytes a word; out of range it is the rejection. -/
theorem wordReadReturnsWords : Obligations.WordReadReturnsWords := by
  refine ⟨fun sp => encode_readInstr sp.space, fun s sp a n => ⟨fun h => ?_, exec_readInstr_of_not_inRange⟩⟩
  exact ⟨_, exec_readInstr_words h, length_wordRead _ _ _, fun k hk => ⟨_, rfl, getD_wordRead _ _ _ hk⟩⟩

/-- The truncating shifts keep the low `r` bits (R104). -/
theorem finalMask_eq_and {r : Nat} (hr : r ≤ 8) (b : Byte) : finalMask r b = b &&& BitVec.ofNat 8 (2 ^ r - 1) := by
  refine BitVec.eq_of_getLsbD_eq fun k hk => ?_
  rw [getLsbD_finalMask hr, BitVec.getLsbD_and, BitVec.getLsbD_ofNat, Nat.testBit_two_pow_sub_one, Bool.and_comm]
  simp [hk]

/-- Where whole bytes are gathered, the elements short of the count are those of the space. -/
abbrev Gathers (gather : Nat → Bool) (m : Memory 8) (idx n : Nat) : Prop :=
  ∀ i, idx ≤ i → i < idx + n → gather i = m.readBit i

/-- A gathered byte with no element past the count is the byte of the bit read. -/
theorem packBits_gather {gather : Nat → Bool} {m : Memory 8} {idx n j : Nat} (hgather : Gathers gather m idx n)
    (hfull : 8 * (j + 1) ≤ n) : packBits (fun k => gather (idx + (8 * j + k))) 8 = bitReadByte m idx n j := by
  refine BitVec.eq_of_getLsbD_eq fun k hk => ?_
  have hcount : 8 * j + k < n := by omega
  rw [bitReadByte, getLsbD_packBits _ (le_refl 8), getLsbD_packBits _ (le_refl 8),
    hgather _ (by omega) (by omega)]
  simp [hcount]

/-- On the final byte the mask drops the elements past the count, whatever was gathered there. -/
theorem finalMask_gather {gather : Nat → Bool} {m : Memory 8} {idx n j : Nat} (hgather : Gathers gather m idx n)
    (hlast : n - 8 * j ≤ 8) :
    finalMask (n - 8 * j) (packBits (fun k => gather (idx + (8 * j + k))) 8) = bitReadByte m idx n j := by
  refine BitVec.eq_of_getLsbD_eq fun k hk => ?_
  rw [bitReadByte, getLsbD_finalMask hlast, getLsbD_packBits _ (le_refl 8), getLsbD_packBits _ (le_refl 8)]
  by_cases hcount : 8 * j + k < n
  · rw [hgather _ (by omega) (by omega)]
    have hkept : k < n - 8 * j := by omega
    simp [hkept, hcount]
  · have hdropped : ¬ k < n - 8 * j := by omega
    simp [hdropped, hcount]

/-- Settles O17: byte by byte the two forms agree, the final byte by the mask. -/
theorem twoStageReadAgrees : Obligations.TwoStageReadAgrees := by
  refine ⟨fun m gather idx n hgather => ?_, fun r b hr => finalMask_eq_and hr b, fun n hn => by omega⟩
  refine List.map_congr_left fun j hj => ?_
  have hlt : j < ceil8 n := List.mem_range.mp hj
  have hceil : ceil8 n = (n + 7) / 8 := rfl
  by_cases hlast : j = ceil8 n - 1
  · refine (if_pos hlast).trans ?_
    rw [← hlast]
    exact finalMask_gather hgather (by omega)
  · exact (if_neg hlast).trans (packBits_gather hgather (by omega))

/-! ### Writes (R105, R106, R108) -/

/-- Settles O18: in range and with enough data the space's array becomes the one of the bit write, which changes
exactly the addressed elements; the two error causes are rejections. -/
theorem bitWriteChangesExactlyItsElements : Obligations.BitWriteChangesExactlyItsElements := by
  refine ⟨fun sp => encode_writeInstr sp.space, fun s sp a n hwf => ⟨fun h hdin => ?_,
    exec_writeInstr_of_not_inRange, fun h hshort => exec_writeInstr_of_short h ?_⟩⟩
  · refine ⟨_, ?_, wf_bitWrite hwf _ _ _, readBit_bitWrite hwf _ _ _⟩
    rw [exec_writeInstr_bits h hdin, State.setBits_respond]
  · rwa [dinNeeded_writeInstr_bits]

/-- Settles O19: in range and with enough data the space's array becomes the one of the word write, which changes
exactly the addressed words; the two error causes are rejections. -/
theorem wordWriteChangesExactlyItsWords : Obligations.WordWriteChangesExactlyItsWords := by
  refine ⟨fun sp => encode_writeInstr sp.space, fun s sp a n hwf => ⟨fun h hdin => ?_,
    exec_writeInstr_of_not_inRange, fun h hshort => exec_writeInstr_of_short h ?_⟩⟩
  · refine ⟨_, ?_, wf_wordWrite hwf _ _ _, read_wordWrite hwf _ _ _⟩
    rw [exec_writeInstr_words h hdin, State.setWords_respond]
  · rwa [dinNeeded_writeInstr_words]

/-! ### A write followed by a read (R118) -/

theorem wordRead_succ (m : Memory 16) (idx n : Nat) :
    wordRead m idx (n + 1) = wordRead m idx n ++ wordBytes (m.read (idx + n)) := by
  simp [wordRead, List.range_succ]

/-- Words made of a stream's byte pairs read back as the stream. -/
theorem wordRead_eq_take {m : Memory 16} {idx : Nat} {d : List Byte} {n : Nat} (hlen : 2 * n ≤ d.length)
    (h : ∀ k < n, m.read (idx + k) = wordOf (d.getD (2 * k) 0#8) (d.getD (2 * k + 1) 0#8)) :
    wordRead m idx n = d.take (2 * n) := by
  induction n with
  | zero => rfl
  | succ n ih =>
    have htake : d.take (2 * (n + 1)) = d.take (2 * n) ++ [d[2 * n], d[2 * n + 1]] := by
      rw [Nat.mul_succ, List.take_succ_eq_append_getElem (by omega), List.take_succ_eq_append_getElem (by omega),
        List.append_assoc]
      rfl
    rw [wordRead_succ, ih (by omega) fun k hk => h k (by omega), h n (by omega), wordBytes_wordOf, htake,
      List.getD_eq_getElem _ _ (by omega), List.getD_eq_getElem _ _ (by omega)]

theorem wordRead_wordWrite {m : Memory 16} (hm : m.wf = true) (idx : Nat) {d : List Byte} {n : Nat}
    (hlen : 2 * n ≤ d.length) : wordRead (wordWrite m idx d n) idx n = d.take (2 * n) :=
  wordRead_eq_take hlen fun _ hk => read_wordWrite_add hm idx d hk

/-- Bit by bit, a bit write reads back as its data up to the count and as 0 past it. -/
theorem getLsbD_bitRead_bitWrite {m : Memory 8} (hm : m.wf = true) (idx : Nat) (d : List Byte) {n j k : Nat}
    (hj : j < ceil8 n) (hk : k < 8) :
    ((bitRead (bitWrite m idx n d) idx n).getD j 0#8).getLsbD k =
      (decide (8 * j + k < n) && (d.getD j 0#8).getLsbD k) := by
  rw [getLsbD_bitRead _ _ _ hj hk, readBit_bitWrite hm]
  by_cases hlt : 8 * j + k < n
  · have hbyte : (8 * j + k) / 8 = j := by omega
    have hbit : (8 * j + k) % 8 = k := by omega
    rw [if_pos (by omega), Nat.add_sub_cancel_left, hbyte, hbit]
  · simp [hlt]

theorem getD_bitRead_bitWrite_full {m : Memory 8} (hm : m.wf = true) (idx : Nat) (d : List Byte) {n j : Nat}
    (hj : 8 * (j + 1) ≤ n) : (bitRead (bitWrite m idx n d) idx n).getD j 0#8 = d.getD j 0#8 := by
  have hceil : j < ceil8 n := by unfold ceil8; omega
  refine BitVec.eq_of_getLsbD_eq fun k hk => ?_
  rw [getLsbD_bitRead_bitWrite hm idx d hceil hk]
  have hcount : 8 * j + k < n := by omega
  simp [hcount]

theorem getD_bitRead_bitWrite_last {m : Memory 8} (hm : m.wf = true) (idx : Nat) (d : List Byte) {n j : Nat}
    (hj : j + 1 = ceil8 n) :
    (bitRead (bitWrite m idx n d) idx n).getD j 0#8 = finalMask (n - 8 * j) (d.getD j 0#8) := by
  have hceil : ceil8 n = (n + 7) / 8 := rfl
  refine BitVec.eq_of_getLsbD_eq fun k hk => ?_
  rw [getLsbD_bitRead_bitWrite hm idx d (by omega) hk, getLsbD_finalMask (by omega)]
  have hcount : 8 * j + k < n ↔ k < n - 8 * j := by omega
  simp [hcount]

/-- The read passes too, since the write leaves the parameters, and it reads the array that the write left. -/
theorem write_then_read_bits {s : State} {sp : BitSpace} {a n : Word} (c : Command) {idx : Nat}
    (hidx : idx = a.toNat - s.params.start sp.space) (h : InRange s.params sp.space a n)
    (hdin : ceil8 n.toNat ≤ s.din.length) :
    ∃ t u, exec (writeInstr sp.space a n) s = .next t ∧ exec (readInstr sp.space a n) (t.accept c) = .next u ∧
      u.responses = s.responses ++
        [⟨.ok, []⟩, ⟨.ok, bitRead (bitWrite (s.bits sp) idx n.toNat s.din) idx n.toNat⟩] := by
  refine ⟨_, _, exec_writeInstr_bits h hdin, exec_readInstr_bits (by simpa using h), ?_⟩
  simp [hidx]

/-- The same for a word space. -/
theorem write_then_read_words {s : State} {sp : WordSpace} {a n : Word} (c : Command) {idx : Nat}
    (hidx : idx = a.toNat - s.params.start sp.space) (h : InRange s.params sp.space a n)
    (hdin : 2 * n.toNat ≤ s.din.length) :
    ∃ t u, exec (writeInstr sp.space a n) s = .next t ∧ exec (readInstr sp.space a n) (t.accept c) = .next u ∧
      u.responses = s.responses ++
        [⟨.ok, []⟩, ⟨.ok, wordRead (wordWrite (s.words sp) idx s.din n.toNat) idx n.toNat⟩] := by
  refine ⟨_, _, exec_writeInstr_words h hdin, exec_readInstr_words (by simpa using h), ?_⟩
  simp [hidx]

/-- Settles O21: the words that were written read back as the stream; the bits that were written read back as the
data bytes, the final one masked to its `r` bits. -/
theorem writeThenReadRoundTrip : Obligations.WriteThenReadRoundTrip := by
  refine ⟨fun s sp a n c hwf h hdin => ?_, fun s sp a n c hwf h hdin => ?_⟩
  · rw [← wordRead_wordWrite hwf _ hdin]
    exact write_then_read_words c rfl h hdin
  · obtain ⟨t, u, hwrite, hread, hresponses⟩ := write_then_read_bits c rfl h hdin
    refine ⟨t, u, _, hwrite, hread, hresponses, length_bitRead _ _ _, fun j hj => ?_, fun j hj => ?_⟩
    · exact getD_bitRead_bitWrite_full hwf _ _ (by omega)
    · rw [getD_bitRead_bitWrite_last hwf _ _ hj, finalMask_eq_and (by omega)]

/-! ### Count zero (R119) -/

theorem bitRead_zero (m : Memory 8) (idx : Nat) : bitRead m idx 0 = [] := rfl

theorem wordRead_zero (m : Memory 16) (idx : Nat) : wordRead m idx 0 = [] := rfl

theorem bitWrite_zero (m : Memory 8) (idx : Nat) (d : List Byte) : bitWrite m idx 0 d = m := rfl

theorem wordWrite_zero (m : Memory 16) (idx : Nat) (d : List Byte) : wordWrite m idx d 0 = m := rfl

/-- In range, a count of zero reads no byte and writes the array back as it was. -/
theorem exec_count_zero {sp : Space} {a : Word} {s : State} (h : InRange s.params sp a 0#16) :
    exec (readInstr sp a 0#16) s = .next (s.respond .ok []) ∧
    exec (writeInstr sp a 0#16) s = .next (s.respond .ok []) := by
  obtain ⟨bs, rfl⟩ | ⟨ws, rfl⟩ := space_cases sp
  · rw [exec_readInstr_bits h, exec_writeInstr_bits h (Nat.zero_le _), BitVec.toNat_zero, bitRead_zero,
      bitWrite_zero, State.setBits_self]
    exact ⟨rfl, rfl⟩
  · rw [exec_readInstr_words h, exec_writeInstr_words h (Nat.zero_le _), BitVec.toNat_zero, wordRead_zero,
      wordWrite_zero, State.setWords_self]
    exact ⟨rfl, rfl⟩

/-- Settles O22: with count 0, in range is START ≤ A ≤ START + QTY. -/
theorem countZeroIsLegal : Obligations.CountZeroIsLegal := by
  intro s sp a
  exact ⟨exists_addressDecode_iff s.params sp a 0#16, exec_count_zero⟩

end Sys2Proof.Machine
end

section
/-! The request and response commands, and the engine's commands inside an envelope (41_tcp_lifecycle R150, R152, R154,
R155). -/

namespace Sys2Proof.Machine

/-! ### TCP.GETREQ (R154) -/

theorem getD_readBytes (m : Memory 8) {n j : Nat} (hj : j < n) : (m.readBytes n).getD j 0#8 = m.read j := by
  rw [List.getD_eq_getElem _ _ (by simpa using hj)]
  simp [Memory.readBytes]

theorem exec_tcpGetReq_of_svc {s : State} (hsvc : s.svc = true) :
    exec .tcpGetReq s =
      .next (({ s with rxRecv := false } : State).respond .ok (s.rxBuf.readBytes s.rxLen.toNat)) := by
  rw [exec, execTcpGetReq, tcpGetReq, if_pos hsvc]

theorem exec_tcpGetReq_of_not_svc {s : State} (hsvc : s.svc = false) :
    exec .tcpGetReq s = .next (s.reject .illegalCommand) :=
  exec_of_firstError (by simp [firstError, hsvc])

/-- Settles O26: the second request finds the same RX_BUF and RX_LEN, and RX_RECV already 0. -/
theorem getReqReturnsRequest : Obligations.GetReqReturnsRequest := by
  refine ⟨by decide, fun s => ⟨fun hsvc => ?_, exec_tcpGetReq_of_not_svc⟩⟩
  refine ⟨s.rxBuf.readBytes s.rxLen.toNat, Memory.length_readBytes _ _, fun j hj => ?_, exec_tcpGetReq_of_svc hsvc,
    (exec_tcpGetReq_of_svc ?_).trans ?_⟩
  · rw [Memory.length_readBytes] at hj
    exact getD_readBytes _ hj
  · exact hsvc
  · simp [State.respond]

/-! ### TCP.SETRESP (R155) -/

/-- TX_BUF after a load: the data below LEN, the old bytes from LEN on. -/
theorem read_loadResponse {s : State} {len : Word} (hwf : s.txBuf.wf = true) (hdin : len.toNat ≤ s.din.length)
    (j : Nat) :
    (s.loadResponse len).txBuf.read j = if j < len.toNat then s.din.getD j 0#8 else s.txBuf.read j := by
  rw [State.loadResponse_txBuf, Memory.read_writeBytes hwf]
  by_cases hj : j < len.toNat
  · rw [if_pos hj, dif_pos (by simp; omega), List.getElem_take, List.getD_eq_getElem]
  · rw [if_neg hj, dif_neg (by simp; omega)]

theorem exec_tcpSetResp_of_fits {s : State} {len : Word} (hsvc : s.svc = true) (hfits : len.toNat ≤ s.params.txBufSize)
    (hdin : len.toNat ≤ s.din.length) :
    exec (.tcpSetResp len) s = .next ((s.loadResponse len).respond .ok []) := by
  rw [exec, execTcpSetResp, tcpSetResp, if_pos hsvc, if_neg (by omega), if_neg (by omega)]

/-- Settles O27: each error is the first cause in the order of R80; without one the response is loaded. -/
theorem setRespLoadsResponse : Obligations.SetRespLoadsResponse := by
  refine ⟨fun _ => rfl, fun s len hwf => ⟨fun hsvc hfits hdin => ?_, fun hsvc => ?_, fun hsvc hbig => ?_,
    fun hsvc hfits hshort => ?_⟩⟩
  · exact ⟨(s.loadResponse len).txBuf, Memory.wf_writeBytes hwf _, read_loadResponse hwf hdin,
      exec_tcpSetResp_of_fits hsvc hfits hdin⟩
  · exact exec_of_firstError (by simp [firstError, hsvc])
  · exact exec_of_firstError (by simp [firstError, hsvc, hbig])
  · exact exec_of_firstError (by simp [firstError, hsvc, hshort, Nat.not_lt.mpr hfits])

/-! ### The engine's commands (R150, R152) -/

/-- Inside an envelope a command of the engine is performed as the host's would be. -/
theorem exec_eq_nestedCommand (i : Instr) {s : State} (hsvc : s.svc = true) :
    exec i s = .next (nestedCommand i s) := by
  cases i with
  | tcpPoll => exact exec_of_firstError (by simp [firstError, hsvc])
  | _ => rfl

theorem engineAction_of_decode {c : Command} {i : Instr} (hdecode : decode c.word = .ok i) (s : State) :
    engineAction (.command c) s = nestedCommand i (s.outside.accept c) := by
  simp only [engineAction, nestedWord, hdecode]

/-- Settles O30: a decoded command of the engine is its own rule; the rejections are those of the host's commands. -/
theorem engineCommandsFollowTheirRules : Obligations.EngineCommandsFollowTheirRules := by
  obtain ⟨-, -, hgetReq, hsetResp, hpoll⟩ := illegalCommandsHaveNoEffect
  refine ⟨fun c i s hsvc hdecode => ?_, fun c s hreserved => ?_, engineRun_nil, engineRun_cons, hpoll, hgetReq,
    hsetResp⟩
  · rw [engineAction_of_decode hdecode]
    exact exec_eq_nestedCommand i (s.outside_svc.trans hsvc)
  · rw [engineAction, nestedWord_reserved hreserved, ← State.outside_responses s]
    rfl

end Sys2Proof.Machine
end

section
/-! What a poll does in each of its cases: the whole next state, its primitives in order, and what it leaves
(41_tcp_lifecycle R130 to R157). -/

namespace Sys2Proof.Machine

/-! ### The poll as a whole (R130, R139, R153) -/

theorem exec_tcpPoll {s : State} {a : ChipAnswers} (ha : a = s.chipAnswers) (hsvc : s.svc = false) :
    exec .tcpPoll s = .next ((pollSteps a s.drawChip).respond .ok []) := by
  rw [exec, execTcpPoll, tcpPoll, if_neg (by simp [hsvc]), ha]

/-- A poll that reaches step 3 does the status's one action in the state `B` in which the status has been read. -/
theorem exec_tcpPoll_of_reaches {s B : State} {a : ChipAnswers} (ha : a = s.chipAnswers) (hsvc : s.svc = false)
    (hreach : ReachesStatus a s) (hB : B = s.drawChip.atStatus a) :
    exec .tcpPoll s = .next ((statusAction a (statusOf s.params a.status) B).respond .ok []) := by
  have hreach' : ReachesStatus a s.drawChip := hreach
  rw [exec_tcpPoll ha hsvc, pollSteps_of_reaches hreach', State.drawChip_params, hB]

/-- Settles O36: each status's action, in the state in which the status has been read. -/
theorem pollStatusActions : Obligations.PollStatusActions := by
  intro s B a ha hsvc hreach hB
  have hexec := exec_tcpPoll_of_reaches ha hsvc hreach hB
  have hresponses : B.responses = s.responses := by simp [hB]
  have hnetcfg : B.netcfg = s.netcfg := by simp [hB]
  refine ⟨fun hst => ?_, fun hst => ?_, fun hst => ?_, fun hst => ?_, fun hst => ?_⟩
  all_goals rw [hexec, hst, ← hresponses]
  case refine_1 => rw [← hnetcfg]; rfl
  all_goals rfl

/-! ### The envelope (R148 to R151) -/

/-- Phase A field by field (R149). -/
theorem phaseA_eq (a : ChipAnswers) (s : State) :
    phaseA a s = { s with
      svc := true, txSent := false
      savedEvent := slotAfter s.slot (s.outsidePuts.headD [])
      rxBuf := Memory.writeBytes s.rxBuf (recvBytes a s.draws (min a.rxReady.toNat s.params.rxBufSize))
      rxLen := BitVec.ofNat 16 (min a.rxReady.toNat s.params.rxBufSize), rxRecv := true
      mode := .tcp, slot := some .frameReceived
      outsidePuts := s.outsidePuts.tail.tail
      chipTrace := s.chipTrace ++ [.recv (min a.rxReady.toNat s.params.rxBufSize)] } := by
  simp [phaseA, State.openEnvelope, State.receive, State.postFrame, State.evPut, State.issue, State.outside_eq]

/-- Phase B field by field (R151). -/
theorem phaseB_eq (s : State) :
    phaseB s = { s with
      mode := .rtu, svc := false, slot := s.savedEvent
      txEn := false, txSent := s.txEn || s.txSent
      outsidePuts := s.outsidePuts.tail
      chipTrace := s.chipTrace ++ (if s.txEn then [.send (s.txBuf.readBytes s.txLen.toNat)] else []) } := by
  cases htx : s.txEn <;>
    simp [phaseB, State.sendResponse, State.closeEnvelope, State.evPut, State.issue, State.outside_eq, htx]

/-- The engine's transaction writes none of the fields of `EngineFrame`. -/
theorem EngineFrame.engineStep (s : State) : EngineFrame s.drawEngine (engineStep s) := .engineRun _ _

theorem onEstablished_of_idle {a : ChipAnswers} (h : ¬ 0 < a.rxReady.toNat) (s : State) :
    onEstablished a s =
      (({ s with connected := true } : State).issue .rxReady).issue (.setKeepalive s.params.keepalive) := by
  simp only [onEstablished, gt_iff_lt, if_neg h]

theorem onEstablished_of_waiting {a : ChipAnswers} (h : 0 < a.rxReady.toNat) (s : State) :
    onEstablished a s =
      (service a (({ s with connected := true } : State).issue .rxReady)).issue (.setKeepalive s.params.keepalive) := by
  simp only [onEstablished, gt_iff_lt, if_pos h]

/-- A poll that opens an envelope: `A` is the state at the end of phase A, from which the engine's one transaction
starts; phase B and the keepalive follow. -/
theorem exec_tcpPoll_of_opens {s B A : State} {a : ChipAnswers} (ha : a = s.chipAnswers) (hsvc : s.svc = false)
    (hopens : OpensEnvelope a s) (hB : B = s.drawChip.atStatus a)
    (hA : A = phaseA a (({ B with connected := true } : State).issue .rxReady)) :
    exec .tcpPoll s = .next (((phaseB (engineRun A.engineOps A.drawEngine)).issue
      (.setKeepalive s.params.keepalive)).respond .ok []) := by
  obtain ⟨hreach, hst, hwaiting⟩ := hopens
  have hparams : B.params = s.params := by simp [hB]
  rw [exec_tcpPoll_of_reaches ha hsvc hreach hB, hst, statusAction, onEstablished_of_waiting hwaiting, service, ← hA,
    hparams, engineStep]

/-- Settles O38: both phases field by field; between them the engine's frame carries what phase B reads of phase A. -/
theorem pollServesOneRequest : Obligations.PollServesOneRequest := by
  rintro s B A E a m ha hsvc hopens hB rfl hA hE
  have hphaseA : A = phaseA a (({ B with connected := true } : State).issue .rxReady) := by
    rw [phaseA_eq, hA, hB]
    simp [State.issue]
  have hengine : E = engineRun A.engineOps A.drawEngine := by
    have hfields : A.engine = s.engine ∧ A.draws = s.draws + 1 := by simp [hA, hB]
    rw [hE, State.drawEngine, hfields.1, hfields.2]
  have hframe : EngineFrame A.drawEngine E := hengine ▸ .engineRun _ _
  have hsent : E.txSent = false := by rw [hframe.txSent, hA]; rfl
  rw [exec_tcpPoll_of_opens ha hsvc hopens hB hphaseA, ← hengine, phaseB_eq, hsent, Bool.or_false,
    hframe.savedEvent, hframe.chipTrace]
  rfl

/-! ### The slot and the mode (R157) -/

theorem phaseA_savedEvent (a : ChipAnswers) (s : State) :
    (phaseA a s).savedEvent = slotAfter s.slot (s.outsidePuts.headD []) := by rw [phaseA_eq]

theorem phaseB_savedEvent (s : State) : (phaseB s).savedEvent = s.savedEvent := by rw [phaseB_eq]

theorem phaseB_slot (s : State) : (phaseB s).slot = s.savedEvent := by rw [phaseB_eq]

/-- The state without what a poll may write outside an envelope: the descriptor, the socket's bookkeeping, the trace
and the chip's script. Two states that agree here agree in every other field (R43, R49). -/
def State.forgetPoll (s : State) : State :=
  { s with
    linkUp := false, sockState := 0#8, connected := false, txEn := false, txSent := false, rxRecv := false
    rxLen := 0#16, txLen := 0#16, sockValid := false, initFailed := false, chipTrace := [], chip := [], draws := 0 }

theorem State.atStatus_forgetPoll (a : ChipAnswers) (s : State) : (s.atStatus a).forgetPoll = s.forgetPoll := by
  unfold State.atStatus; split <;> rfl

theorem State.issue_forgetPoll (op : ChipOp) (s : State) : (s.issue op).forgetPoll = s.forgetPoll := rfl

theorem State.releaseSocket_forgetPoll (s : State) : s.releaseSocket.forgetPoll = s.forgetPoll := rfl

theorem reinitState_forgetPoll (ok : Bool) (s : State) : (reinitState ok s).forgetPoll = s.forgetPoll := rfl

theorem State.probe_forgetPoll (s : State) : s.probe.forgetPoll = s.forgetPoll := by
  unfold State.probe; split <;> rfl

theorem statusAction_forgetPoll {a : ChipAnswers} {st : SockStatus} (h : ¬ (st = .established ∧ 0 < a.rxReady.toNat))
    (s : State) : (statusAction a st s).forgetPoll = s.forgetPoll := by
  cases st with
  | established =>
    rw [statusAction, onEstablished_of_idle fun hwaiting => h ⟨rfl, hwaiting⟩]
    rfl
  | _ => rfl

/-- The three ways a poll ends without an envelope write nothing else. -/
theorem pollSteps_forgetPoll {a : ChipAnswers} {s : State} (h : ¬ OpensEnvelope a s) :
    (pollSteps a s).forgetPoll = s.forgetPoll := by
  rcases poll_cases a s with hreach | ⟨hready, hdrop⟩ | ⟨hready, hmismatch⟩
  · rw [pollSteps_of_reaches hreach, statusAction_forgetPoll fun hst => h ⟨hreach, hst⟩, State.atStatus_forgetPoll]
  · simp only [pollSteps_of_drop hready hdrop, State.releaseSocket_forgetPoll, State.issue_forgetPoll]
  · rw [pollSteps_of_mismatch hready hmismatch, reinitState_forgetPoll, State.probe_forgetPoll]

/-- A poll that opens an envelope leaves RTU mode, the envelope closed, and the slot as phase A's EvRead found it:
the engine cannot write SAVED_EVENT. -/
theorem exec_tcpPoll_restores {s : State} {a : ChipAnswers} (ha : a = s.chipAnswers) (hsvc : s.svc = false)
    (hopens : OpensEnvelope a s) :
    ∃ t, exec .tcpPoll s = .next t ∧ t.mode = .rtu ∧ t.svc = false ∧
      t.savedEvent = slotAfter s.slot (s.outsidePuts.headD []) ∧ t.slot = t.savedEvent := by
  obtain ⟨B, hB⟩ : ∃ B, B = s.drawChip.atStatus a := ⟨_, rfl⟩
  obtain ⟨A, hA⟩ : ∃ A, A = phaseA a (({ B with connected := true } : State).issue .rxReady) := ⟨_, rfl⟩
  refine ⟨_, exec_tcpPoll_of_opens ha hsvc hopens hB hA, ?_⟩
  simp only [State.respond_mode, State.respond_svc, State.respond_savedEvent, State.respond_slot, State.issue_mode,
    State.issue_svc, State.issue_savedEvent, State.issue_slot, phaseB_mode, phaseB_svc, phaseB_savedEvent, phaseB_slot,
    and_true, true_and]
  rw [(EngineFrame.engineRun A.engineOps A.drawEngine).savedEvent, State.drawEngine_savedEvent, hA, phaseA_savedEvent,
    hB]
  simp

/-- A poll without an envelope leaves the mode, the envelope flag, the slot and its snapshot. -/
theorem exec_tcpPoll_of_not_opens {s : State} {a : ChipAnswers} (ha : a = s.chipAnswers) (hsvc : s.svc = false)
    (hopens : ¬ OpensEnvelope a s) :
    ∃ t, exec .tcpPoll s = .next t ∧ t.mode = s.mode ∧ t.svc = s.svc ∧ t.slot = s.slot ∧
      t.savedEvent = s.savedEvent := by
  have hkept : (pollSteps a s.drawChip).forgetPoll = s.drawChip.forgetPoll := pollSteps_forgetPoll hopens
  exact ⟨_, exec_tcpPoll ha hsvc, (congrArg State.mode hkept :), (congrArg State.svc hkept :),
    (congrArg State.slot hkept :), (congrArg State.savedEvent hkept :)⟩

/-- What every transaction keeps of the mode and the envelope. -/
theorem engineRun_keeps_open (ops : List EngineOp) {s : State} (hmode : s.mode = .tcp) (hsvc : s.svc = true) :
    (engineRun ops s).mode = .tcp ∧ (engineRun ops s).svc = true :=
  have hframe := EngineFrame.engineRun ops s
  ⟨hframe.mode.trans hmode, hframe.svc.trans hsvc⟩

/-- Settles O40: phase B forces RTU and restores the snapshot, a poll without an envelope keeps all three, and every
transaction keeps what phase A leaves. -/
theorem pollRestoresModeAndSlot : Obligations.PollRestoresModeAndSlot := by
  refine ⟨fun s a ha hinv => ?_, fun ops _ => engineRun_keeps_open ops, fun s B A a ha hsvc hopens hB hA => ?_⟩
  · by_cases hopens : OpensEnvelope a s
    · obtain ⟨t, hexec, hmode, hsvc, hsaved, hslot⟩ := exec_tcpPoll_restores ha hinv.svc hopens
      exact ⟨t, hexec, hmode, hsvc, fun _ => ⟨hsaved, hslot⟩, fun h => absurd hopens h⟩
    · obtain ⟨t, hexec, hmode, hsvc, hslot, hsaved⟩ := exec_tcpPoll_of_not_opens ha hinv.svc hopens
      exact ⟨t, hexec, hmode.trans hinv.mode, hsvc.trans hinv.svc, fun h => absurd h hopens, fun _ => ⟨hslot, hsaved⟩⟩
  · have hmode : A.mode = .tcp := hA ▸ phaseA_mode _ _
    have hopen : A.svc = true := hA ▸ phaseA_svc _ _
    exact ⟨hmode, hopen, fun ops => engineRun_keeps_open ops hmode hopen, exec_tcpPoll_of_opens ha hsvc hopens hB hA⟩

/-! ### The primitives of a poll, in order (R134, R137, R146) -/

/-- No keepalive is among the primitives. -/
def NoKeepalive (ops : List ChipOp) : Prop := ∀ k, ChipOp.setKeepalive k ∉ ops

theorem NoKeepalive.append {xs ys : List ChipOp} (hx : NoKeepalive xs) (hy : NoKeepalive ys) :
    NoKeepalive (xs ++ ys) := fun k hk => (List.mem_append.mp hk).elim (hx k) (hy k)

theorem service_chipTrace (a : ChipAnswers) (s : State) :
    ∃ served, NoKeepalive served ∧ (service a s).chipTrace = s.chipTrace ++ served := by
  set E := engineStep (phaseA a s) with hE
  have hframe : E.chipTrace = (phaseA a s).chipTrace := (EngineFrame.engineStep (phaseA a s)).chipTrace
  refine ⟨.recv (min a.rxReady.toNat s.params.rxBufSize) ::
    if E.txEn then [.send (E.txBuf.readBytes E.txLen.toNat)] else [], fun k => ?_, ?_⟩
  · split <;> simp
  · rw [service, ← hE, phaseB_eq, hframe, phaseA_eq]
    simp

/-- The action of a status issues the keepalive last, and only with ESTABLISHED. -/
theorem statusAction_chipTrace (a : ChipAnswers) (st : SockStatus) (s : State) :
    ∃ front, NoKeepalive front ∧ (statusAction a st s).chipTrace =
      s.chipTrace ++ front ++ if st = .established then [ChipOp.setKeepalive s.params.keepalive] else [] := by
  cases st with
  | closed =>
    exact ⟨[.openSocket s.netcfg.port [.noDelay, .nonBlocking]], by simp [NoKeepalive],
      by simp [statusAction, onClosed]⟩
  | init => exact ⟨[.listen], by simp [NoKeepalive], by simp [statusAction, onInit]⟩
  | listen => exact ⟨[], by simp [NoKeepalive], by simp [statusAction]⟩
  | established =>
    rw [statusAction]
    by_cases hwaiting : 0 < a.rxReady.toNat
    · obtain ⟨served, hserved, htrace⟩ := service_chipTrace a (({ s with connected := true } : State).issue .rxReady)
      refine ⟨.rxReady :: served, ?_, ?_⟩
      · exact NoKeepalive.append (xs := [.rxReady]) (by simp [NoKeepalive]) hserved
      · rw [onEstablished_of_waiting hwaiting, State.issue_chipTrace, htrace]
        simp
    · rw [onEstablished_of_idle hwaiting]
      exact ⟨[.rxReady], by simp [NoKeepalive], by simp⟩
  | closeWait => exact ⟨[.disconnect], by simp [NoKeepalive], by simp [statusAction, onCloseWait]⟩
  | other => exact ⟨[], by simp [NoKeepalive], by simp [statusAction]⟩

theorem atStatus_chipTrace (a : ChipAnswers) (s : State) :
    ∃ front, NoKeepalive front ∧ (s.atStatus a).chipTrace = s.chipTrace ++ front := by
  unfold State.atStatus
  split
  · exact ⟨_, by simp [NoKeepalive], rfl⟩
  · refine ⟨_, ?_, List.append_assoc _ _ _⟩
    cases s.sockValid <;> simp [NoKeepalive]

/-- A poll that ends before the status issues no keepalive. -/
theorem pollSteps_chipTrace_of_not_reaches {a : ChipAnswers} {s : State} (h : ¬ ReachesStatus a s) :
    ∃ new, NoKeepalive new ∧ (pollSteps a s).chipTrace = s.chipTrace ++ new := by
  rcases (poll_cases a s).resolve_left h with ⟨hready, hdrop⟩ | ⟨hready, hmismatch⟩
  · exact ⟨[ChipOp.portActive, .linkStatus, .closeSocket], by simp [NoKeepalive],
      by simp [pollSteps_of_drop hready hdrop]⟩
  · refine ⟨(if s.sockValid then [ChipOp.portActive] else []) ++ [ChipOp.programConfig s.netcfg, .readConfig], ?_, ?_⟩
    · cases s.sockValid <;> simp [NoKeepalive]
    · rw [pollSteps_of_mismatch hready hmismatch]
      cases hvalid : s.sockValid <;> simp [reinitState, State.probe, hvalid]

/-- Settles O43: the keepalive closes the action of ESTABLISHED, and nothing before it or in another poll is one. -/
theorem keepaliveLastOnEstablishedOnly : Obligations.KeepaliveLastOnEstablishedOnly := by
  intro s a ha hsvc
  by_cases hreach : ReachesStatus a s
  · obtain ⟨read, hread, hreadTrace⟩ := atStatus_chipTrace a s.drawChip
    obtain ⟨act, hact, hactTrace⟩ :=
      statusAction_chipTrace a (statusOf s.params a.status) (s.drawChip.atStatus a)
    refine ⟨_, (read ++ act) ++
        if statusOf s.params a.status = .established then [ChipOp.setKeepalive s.params.keepalive] else [],
      exec_tcpPoll_of_reaches ha hsvc hreach rfl, ?_, fun ⟨_, hst⟩ => ?_, fun hnot => ?_⟩
    · rw [State.respond_chipTrace, hactTrace, hreadTrace]
      simp
    · exact ⟨read ++ act, by rw [if_pos hst], hread.append hact⟩
    · rw [if_neg fun hst => hnot ⟨hreach, hst⟩, List.append_nil]
      exact hread.append hact
  · obtain ⟨new, hnew, htrace⟩ := pollSteps_chipTrace_of_not_reaches (s := s.drawChip) hreach
    exact ⟨_, new, exec_tcpPoll ha hsvc, htrace, fun h => absurd h.1 hreach, fun _ => hnew⟩

/-! ### A link drop (R137, R176) -/

/-- While SOCK_VALID = 0 a poll programs the chip first, without querying the port (R131, R132). -/
theorem exec_tcpPoll_programs {s : State} {a : ChipAnswers} (ha : a = s.chipAnswers) (hsvc : s.svc = false)
    (hvalid : s.sockValid = false) :
    ∃ u more, exec .tcpPoll s = .next u ∧
      u.chipTrace = s.chipTrace ++ [ChipOp.programConfig s.netcfg, .readConfig] ++ more := by
  have hready : ¬ SocketReady a s.drawChip := fun h => absurd h.1 (by simp [hvalid])
  by_cases hreach : ReachesStatus a s
  · have hread : (s.drawChip.atStatus a).chipTrace =
        s.chipTrace ++ [ChipOp.programConfig s.netcfg, .readConfig] ++ [ChipOp.linkStatus, .status] := by
      rw [State.atStatus, if_neg hready]
      simp [hvalid]
    obtain ⟨act, hact⟩ : ∃ act, (statusAction a (statusOf s.params a.status) (s.drawChip.atStatus a)).chipTrace =
        (s.drawChip.atStatus a).chipTrace ++ act := by
      obtain ⟨front, -, htrace⟩ := statusAction_chipTrace a (statusOf s.params a.status) (s.drawChip.atStatus a)
      exact ⟨_, htrace.trans (List.append_assoc ..)⟩
    refine ⟨_, [ChipOp.linkStatus, .status] ++ act, exec_tcpPoll_of_reaches ha hsvc hreach rfl, ?_⟩
    rw [State.respond_chipTrace, hact, hread, List.append_assoc _ _ act]
  · have hmismatch : ¬ ReadbackAgrees s.params a.readback s.netcfg := fun h => hreach (.inr ⟨hready, h⟩)
    refine ⟨_, [], exec_tcpPoll ha hsvc, ?_⟩
    rw [State.respond_chipTrace, pollSteps_of_mismatch (s := s.drawChip) hready hmismatch]
    simp [reinitState, State.probe, hvalid]

/-- Settles O35: the drop is the poll's second case; it leaves SOCK_VALID = 0, so the next poll programs the chip. -/
theorem pollLinkDropReleasesSocket : Obligations.PollLinkDropReleasesSocket := by
  intro s a ha hsvc hready hdown hup
  have hdrop : LinkDrops a s.drawChip := ⟨hdown, hup⟩
  have hexec := exec_tcpPoll ha hsvc
  rw [pollSteps_of_drop (s := s.drawChip) hready hdrop] at hexec
  refine ⟨_, rfl, ?_, ?_⟩
  · rw [hexec]
    simp [State.respond, State.issue, State.releaseSocket, State.drawChip]
  · exact exec_tcpPoll_programs rfl hsvc rfl

end Sys2Proof.Machine
end

section
/-! Data shorter than a command needs (30_encoding R80, R81; 60_exceptions R173). -/

namespace Sys2Proof.Machine

/-- With its first two causes excluded, TCP.SETRESP meets DATA_SHORT (R155). -/
theorem exec_tcpSetResp_of_short {s : State} {len : Word} (hsvc : s.svc = true)
    (hfits : len.toNat ≤ s.params.txBufSize) (hshort : s.din.length < len.toNat) :
    exec (.tcpSetResp len) s = .next (s.reject .dataShort) :=
  exec_of_firstError (by rw [firstError, if_neg (not_not.mpr hsvc), if_neg (Nat.not_lt.mpr hfits), if_pos hshort])

/-- Settles O20: a write needs the bytes of its space's kind, a response those of its length, and too few of them are
the first error cause once the range passes, or the response is legal and fits. -/
theorem shortDataRejected : Obligations.ShortDataRejected := by
  refine ⟨rfl, fun s a n => ⟨fun sp h hshort => ?_, fun sp h hshort => ?_, exec_tcpSetResp_of_short⟩⟩
  · exact exec_writeInstr_of_short h (by rwa [dinNeeded_writeInstr_bits])
  · exact exec_writeInstr_of_short h (by rwa [dinNeeded_writeInstr_words])

end Sys2Proof.Machine
end

section
/-! Command words as bytes, and words written out from the opcode map (20_memory R54; 30_encoding R71, R75, R76). -/

namespace Sys2Proof

/-- The eight bytes of a word, put together again, are the word (R54). -/
theorem wordOfBytes_serialise (w : Cmd) :
    wordOfBytes (w.extractLsb' 56 8) (w.extractLsb' 48 8) (w.extractLsb' 40 8) (w.extractLsb' 32 8)
      (w.extractLsb' 24 8) (w.extractLsb' 16 8) (w.extractLsb' 8 8) (w.extractLsb' 0 8) = w := by
  have hjoin : ∀ start len, w.extractLsb' (start + 8) len ++ w.extractLsb' start 8 = w.extractLsb' start (len + 8) :=
    fun _ _ => BitVec.extractLsb'_append_extractLsb'_eq_extractLsb' rfl
  rw [wordOfBytes, hjoin 48 8, hjoin 40 16, hjoin 32 24, hjoin 24 32, hjoin 16 40, hjoin 8 48, hjoin 0 56]
  exact BitVec.extractLsb'_eq_self

theorem decodeBytes_serialise {w : Cmd} {i : Instr} (h : decode w = .ok i) (din : List Byte) :
    decodeBytes (serialise w ++ din) = .ok (i, din) := by
  simp only [serialise, List.cons_append, List.nil_append, decodeBytes, wordOfBytes_serialise, h]

/-- Settles O2: serialisation loses no bit of the word, and the decoder inverts the encoder. -/
theorem decodeInvertsEncode : Obligations.DecodeInvertsEncode :=
  fun i din => decodeBytes_serialise (decode_encode i) din

/-- Settles O1: a valid word is its command's encoding, and a reserved one is refused by the first step of R76 that it
meets. -/
theorem decodeReadsSpecWords : Obligations.DecodeReadsSpecWords := by
  simp only [Obligations.DecodeReadsSpecWords, decode_ok_iff]
  decide

end Sys2Proof
end

section
/-! One step: the outside writes at its start, and the command it performs (30_encoding R70; 60_exceptions R171, R178,
R186). -/

namespace Sys2Proof.Machine

/-! ### Interleaving points (R63, R171) -/

theorem slotAfter_concat (v w : Option Event) (puts : List (Option Event)) : slotAfter v (puts ++ [w]) = w := by
  simp [slotAfter]

theorem State.outside_of_nil {s : State} (h : s.outsidePuts = []) : s.outside = s := by
  simp only [State.outside, h]

/-- Settles O6: the slot after a point is `slotAfter` of its list, which is the list's last write. -/
theorem outsideWritesLastWins : Obligations.OutsideWritesLastWins := by
  refine ⟨fun s => State.outside_of_nil, fun s rest h => ?_, fun s puts v rest h => ?_⟩
  · rw [State.outside_eq, h]
    rfl
  · rw [State.outside_eq, h, List.headD_cons, slotAfter_concat]
    rfl

/-! ### The command a step performs (R70, R186) -/

theorem step_of_idle {s : State} (hpending : s.pending = []) : step s = .next s.outside := by
  have hfetch : s.outside.fetch = none := by rw [State.fetch, State.outside_pending, hpending]
  rw [step, hfetch]

theorem step_of_decode {s : State} {c : Command} {rest : List Command} {i : Instr} (hpending : s.pending = c :: rest)
    (hdecode : decode c.word = .ok i) : step s = exec i (s.outside.takePending c rest) := by
  have hfetch : s.outside.fetch = some (c, s.outside.takePending c rest) := by
    rw [State.fetch, State.outside_pending, hpending]
  simp only [step, hfetch, hdecode]

/-- Settles O4: taking a command replaces `pending` and DIN alone. -/
theorem stepRunsDecodedCommand : Obligations.StepRunsDecodedCommand :=
  ⟨fun _ _ _ _ => step_of_decode, fun _ => step_of_idle⟩

theorem tableWord_toNat (w : Cmd) : tableWord 64 w.toNat = w := by
  rw [tableWord, Nat.mod_eq_of_lt w.isLt, BitVec.ofNat_toNat, BitVec.setWidth_eq]

/-- Settles O5: the placed word is the command's own, and no write comes before it. -/
theorem placedWordRuns : Obligations.PlacedWordRuns := by
  intro s i hputs
  have hquiet : (s.present (encode i)).outside = s.present (encode i) := State.outside_of_nil hputs
  rw [State.withFetchWord, tableWord_toNat, step_of_decode (c := ⟨encode i, []⟩) rfl (decode_encode i), hquiet]
  rfl

theorem exec_completes (i : Instr) (s : State) : Completes (exec i s) :=
  have ⟨t, _, hexec, _⟩ := exec_answers i s
  ⟨t, hexec⟩

/-- What a step can be: an idle one, a rejected word, or a command (R70, R77, R186). -/
theorem step_cases (s : State) : step s = .next s.outside ∨
    ∃ c rest, step s = .next (s.outside.takePending c rest).rejectReserved ∨
      ∃ i, step s = exec i (s.outside.takePending c rest) := by
  cases hpending : s.pending with
  | nil => exact .inl (step_of_idle hpending)
  | cons c rest =>
    refine .inr ⟨c, rest, ?_⟩
    cases hdecode : decode c.word with
    | error _ =>
      refine .inl ((step_of_reserved hpending fun i h => ?_).trans ?_)
      · rw [hdecode] at h
        cases h
      · rw [← State.outside_responses s]
        rfl
    | ok i => exact .inr ⟨i, step_of_decode hpending hdecode⟩

/-- Settles O8: every command is answered, and so every step completes. -/
theorem everyStepCompletes : Obligations.EveryStepCompletes := by
  refine ⟨fun s => ?_, exec_completes⟩
  rcases step_cases s with hstep | ⟨c, rest, hstep | ⟨i, hstep⟩⟩ <;> rw [hstep]
  · exact ⟨_, rfl⟩
  · exact ⟨_, rfl⟩
  · exact exec_completes i _

end Sys2Proof.Machine
end

section
/-! What a command other than TCP.POLL can do, said once, and what it leaves unchanged (10_state R43; 40_register_store
R100; 41_tcp_lifecycle R150). -/

namespace Sys2Proof.Machine

/-- Every next state of a command `i` that is no poll: one response, alone or after the one write that is `i`'s. -/
inductive CommandEffect (i : Instr) (s : State) : State → Prop
  /-- a read, STAT.RD, or a rejection -/
  | answered (st : Status) (dout : List Byte) : CommandEffect i s (s.respond st dout)
  /-- REG.WR of a bit space -/
  | wroteBits (sp : BitSpace) (a n : Word) (idx : Nat) (hi : i = writeInstr sp.space a n)
      (hidx : addressDecode s.params sp.space a n = some idx) :
      CommandEffect i s ((s.setBits sp (bitWrite (s.bits sp) idx n.toNat s.din)).respond .ok [])
  /-- REG.WR of a word space -/
  | wroteWords (sp : WordSpace) (a n : Word) (idx : Nat) (hi : i = writeInstr sp.space a n)
      (hidx : addressDecode s.params sp.space a n = some idx) :
      CommandEffect i s ((s.setWords sp (wordWrite (s.words sp) idx s.din n.toNat)).respond .ok [])
  /-- TCP.GETREQ -/
  | tookRequest (dout : List Byte) (hi : i = .tcpGetReq) :
      CommandEffect i s (({ s with rxRecv := false } : State).respond .ok dout)
  /-- TCP.SETRESP -/
  | loaded (len : Word) (hi : i = .tcpSetResp len) (hsvc : s.svc = true) (hfits : len.toNat ≤ s.params.txBufSize) :
      CommandEffect i s ((s.loadResponse len).respond .ok [])

theorem readBits_effect (i : Instr) (sp : BitSpace) (a n : Word) (s : State) :
    CommandEffect i s (readBits sp a n s) := by
  unfold readBits; split <;> exact .answered _ _

theorem readWords_effect (i : Instr) (sp : WordSpace) (a n : Word) (s : State) :
    CommandEffect i s (readWords sp a n s) := by
  unfold readWords; split <;> exact .answered _ _

theorem writeBits_effect (sp : BitSpace) (a n : Word) (s : State) :
    CommandEffect (writeInstr sp.space a n) s (writeBits sp a n s) := by
  rcases writeBits_cases sp a n s with h | h | ⟨idx, hidx, -, h⟩ <;> rw [h]
  · exact .answered _ _
  · exact .answered _ _
  · exact .wroteBits sp a n idx rfl hidx

theorem writeWords_effect (sp : WordSpace) (a n : Word) (s : State) :
    CommandEffect (writeInstr sp.space a n) s (writeWords sp a n s) := by
  rcases writeWords_cases sp a n s with h | h | ⟨idx, hidx, -, h⟩ <;> rw [h]
  · exact .answered _ _
  · exact .answered _ _
  · exact .wroteWords sp a n idx rfl hidx

theorem tcpGetReq_effect (s : State) : CommandEffect .tcpGetReq s (tcpGetReq s) := by
  unfold tcpGetReq
  split
  · exact .tookRequest _ rfl
  · exact .answered _ _

theorem tcpSetResp_effect (len : Word) (s : State) : CommandEffect (.tcpSetResp len) s (tcpSetResp len s) := by
  rcases tcpSetResp_cases len s with ⟨st, h⟩ | ⟨hsvc, hfits, -, h⟩ <;> rw [h]
  · exact .answered _ _
  · exact .loaded len rfl hsvc hfits

theorem nestedCommand_effect (i : Instr) (s : State) : CommandEffect i s (nestedCommand i s) := by
  cases i with
  | regRdDI a n => exact readBits_effect _ .di a n s
  | regRdCO a n => exact readBits_effect _ .co a n s
  | regRdIR a n => exact readWords_effect _ .ir a n s
  | regRdHR a n => exact readWords_effect _ .hr a n s
  | regWrDI a n => exact writeBits_effect .di a n s
  | regWrCO a n => exact writeBits_effect .co a n s
  | regWrIR a n => exact writeWords_effect .ir a n s
  | regWrHR a n => exact writeWords_effect .hr a n s
  | tcpPoll => exact .answered _ _
  | tcpGetReq => exact tcpGetReq_effect s
  | tcpSetResp len => exact tcpSetResp_effect len s
  | statRd => exact .answered _ _

/-- Outside a poll the host's command is the one the engine would perform. -/
theorem exec_of_ne_tcpPoll {i : Instr} (hi : i ≠ .tcpPoll) (s : State) : exec i s = .next (nestedCommand i s) := by
  cases i with
  | tcpPoll => exact absurd rfl hi
  | _ => rfl

/-! ### What the effect leaves -/

section
variable {i : Instr} {s t : State}

theorem CommandEffect.frame (h : CommandEffect i s t) :
    t.din = s.din ∧ t.slot = s.slot ∧ t.outsidePuts = s.outsidePuts ∧ t.engineReads = s.engineReads := by
  cases h <;> simp

/-- Only TCP.SETRESP writes the response buffer. -/
theorem CommandEffect.tx (h : CommandEffect i s t) (hi : ∀ len, i ≠ .tcpSetResp len) :
    t.txEn = s.txEn ∧ t.txBuf = s.txBuf ∧ t.txLen = s.txLen := by
  cases h with
  | loaded len hlen => exact absurd hlen (hi len)
  | _ => simp

/-- No response is loaded outside an envelope. -/
theorem CommandEffect.txEn_of_not_svc (h : CommandEffect i s t) (hsvc : s.svc = false) : t.txEn = s.txEn := by
  cases h with
  | loaded len _ hopen => simp [hsvc] at hopen
  | _ => simp

/-- Only TCP.GETREQ writes RX_RECV. -/
theorem CommandEffect.rxRecv (h : CommandEffect i s t) (hi : i ≠ .tcpGetReq) : t.rxRecv = s.rxRecv := by
  cases h with
  | tookRequest dout hget => exact absurd hget hi
  | _ => simp

/-- Only its own REG.WR writes a bit space. -/
theorem CommandEffect.bits (h : CommandEffect i s t) {sp : BitSpace} (hi : ∀ a n, i ≠ writeInstr sp.space a n) :
    t.bits sp = s.bits sp := by
  cases h with
  | wroteBits sp' a n idx hwrite =>
    have hne : sp ≠ sp' := fun heq => hi a n (heq ▸ hwrite)
    rw [State.respond_bits, State.setBits_bits_ne s _ hne]
  | tookRequest | loaded => cases sp <;> rfl
  | _ => simp

/-- Only its own REG.WR writes a word space. -/
theorem CommandEffect.words (h : CommandEffect i s t) {sp : WordSpace} (hi : ∀ a n, i ≠ writeInstr sp.space a n) :
    t.words sp = s.words sp := by
  cases h with
  | wroteWords sp' a n idx hwrite =>
    have hne : sp ≠ sp' := fun heq => hi a n (heq ▸ hwrite)
    rw [State.respond_words, State.setWords_words_ne s _ hne]
  | tookRequest | loaded => cases sp <;> rfl
  | _ => simp

end

/-- Settles O29: the engine's frame holds of every command, and `CommandEffect` names the one writer of each other
field. -/
theorem commandFrames : Obligations.CommandFrames := by
  intro i s hi
  have heffect := nestedCommand_effect i s
  obtain ⟨hdin, hslot, hputs, hreads⟩ := heffect.frame
  obtain ⟨hparams, hmode, hnetcfg, hlinkUp, hsockState, hconnected, htxSent, hrxEn, hrxBuf, hrxLen, hsockValid,
    hinitFailed, hsvc, hsaved, htrace, hpending, hchip, hdraws, hengine⟩ := EngineFrame.nestedCommand i s
  exact ⟨_, exec_of_ne_tcpPoll hi s, hparams, hmode, hnetcfg, hlinkUp, hsockState, hconnected, htxSent, hrxEn, hrxBuf,
    hrxLen, hsockValid, hinitFailed, hsvc, hsaved, hslot, htrace, hpending, hdin, hchip, hdraws, hengine, hputs, hreads,
    heffect.tx, heffect.rxRecv, heffect.bits (sp := .di), heffect.bits (sp := .co), heffect.words (sp := .ir),
    heffect.words (sp := .hr)⟩

/-! ### The engine's actions (R44, R100, R150) -/

/-- Settles O31: an access is made after the outside writes of its interleaving point. -/
theorem engineSlotAccesses : Obligations.EngineSlotAccesses := by
  refine fun s v => ⟨?_, rfl, rfl⟩
  rw [engineAction, State.outside_engineReads]

/-- A word that the engine presents is rejected as reserved, or performed as its command (R77, R150). -/
theorem engineAction_command_cases (c : Command) (s : State) :
    engineAction (.command c) s = (s.outside.accept c).reject .illegalCommand ∨
    ∃ i, decode c.word = .ok i ∧ engineAction (.command c) s = nestedCommand i (s.outside.accept c) := by
  cases hdecode : decode c.word with
  | error _ =>
    refine .inl (nestedWord_reserved (fun i h => ?_) s.outside)
    rw [hdecode] at h
    cases h
  | ok i => exact .inr ⟨i, rfl, engineAction_of_decode hdecode s⟩

@[simp] theorem State.outside_bits (s : State) (sp : BitSpace) : s.outside.bits sp = s.bits sp := by
  cases sp
  · exact s.outside_bytesDI
  · exact s.outside_bytesCO

@[simp] theorem State.outside_words (s : State) (sp : WordSpace) : s.outside.words sp = s.words sp := by
  cases sp
  · exact s.outside_wordsIR
  · exact s.outside_wordsHR

theorem engineAction_bits {op : EngineOp} {sp : BitSpace}
    (hop : ∀ c a n, op = .command c → decode c.word ≠ .ok (writeInstr sp.space a n)) (s : State) :
    (engineAction op s).bits sp = s.bits sp := by
  cases op with
  | command c =>
    rcases engineAction_command_cases c s with h | ⟨i, hdecode, h⟩ <;> rw [h]
    · rw [State.reject, State.respond_bits, State.accept_bits, State.outside_bits]
    · have hi : ∀ a n, i ≠ writeInstr sp.space a n := fun a n heq => hop c a n rfl (heq ▸ hdecode)
      rw [(nestedCommand_effect i _).bits hi, State.accept_bits, State.outside_bits]
  | evRead | evPut =>
    rw [← State.outside_bits s sp]
    cases sp <;> rfl

theorem engineAction_words {op : EngineOp} {sp : WordSpace}
    (hop : ∀ c a n, op = .command c → decode c.word ≠ .ok (writeInstr sp.space a n)) (s : State) :
    (engineAction op s).words sp = s.words sp := by
  cases op with
  | command c =>
    rcases engineAction_command_cases c s with h | ⟨i, hdecode, h⟩ <;> rw [h]
    · rw [State.reject, State.respond_words, State.accept_words, State.outside_words]
    · have hi : ∀ a n, i ≠ writeInstr sp.space a n := fun a n heq => hop c a n rfl (heq ▸ hdecode)
      rw [(nestedCommand_effect i _).words hi, State.accept_words, State.outside_words]
  | evRead | evPut =>
    rw [← State.outside_words s sp]
    cases sp <;> rfl

/-- Settles O33: no action of the transaction is the space's write command, so each leaves the array. -/
theorem engineWritesOnlyByCommand : Obligations.EngineWritesOnlyByCommand := by
  refine fun ops s => ⟨fun sp hops => ?_, fun sp hops => ?_⟩
  · refine engineRun_induction (P := fun t => t.bits sp = s.bits sp) ops s (fun op hop t ht => ?_) rfl
    exact (engineAction_bits (fun c a n hc => hops c a n (hc ▸ hop)) t).trans ht
  · refine engineRun_induction (P := fun t => t.words sp = s.words sp) ops s (fun op hop t ht => ?_) rfl
    exact (engineAction_words (fun c a n hc => hops c a n (hc ▸ hop)) t).trans ht

end Sys2Proof.Machine
end

section
/-! The invariant: it holds at reset, and every operation keeps it (10_state R22 to R39, R47; 41_tcp_lifecycle
R157). -/

namespace Sys2Proof.Machine

/-! ### What soundness speaks of -/

/-- The state without the fields that soundness does not speak of: the mode, the flags of a request, the event port,
the record of what crossed the ports, and the scripts. -/
def State.soundView (s : State) : State :=
  { s with
    mode := .rtu, sockState := 0#8, txEn := false, txSent := false, rxRecv := false, svc := false, savedEvent := none
    slot := none, chipTrace := [], pending := [], din := [], responses := [], chip := [], draws := 0, engine := []
    outsidePuts := [], engineReads := [] }

/-- Soundness carries over to every state with the same view. -/
theorem State.Sound.of_view {s t : State} (h : s.Sound) (hview : t.soundView = s.soundView) : t.Sound := by
  have hs : s.soundView.Sound := { h with params := h.params }
  have ht : t.soundView.Sound := hview ▸ hs
  exact { ht with params := ht.params }

theorem State.outside_soundView (s : State) : s.outside.soundView = s.soundView := by
  rw [State.outside_eq]
  rfl

theorem State.probe_soundView (s : State) : s.probe.soundView = s.soundView := by
  unfold State.probe; split <;> rfl

section
variable {s : State}

theorem State.Sound.outside (h : s.Sound) : s.outside.Sound := h.of_view s.outside_soundView

/-! ### Writes to storage -/

theorem State.Sound.bits (h : s.Sound) (sp : BitSpace) :
    (s.bits sp).wf = true ∧ (s.bits sp).within (ceil8 (s.params.qty sp.space)) = true := by
  cases sp
  · exact ⟨h.wfDI, h.withinDI⟩
  · exact ⟨h.wfCO, h.withinCO⟩

theorem State.Sound.words (h : s.Sound) (sp : WordSpace) :
    (s.words sp).wf = true ∧ (s.words sp).within (s.params.qty sp.space) = true := by
  cases sp
  · exact ⟨h.wfIR, h.withinIR⟩
  · exact ⟨h.wfHR, h.withinHR⟩

theorem State.Sound.setBits (h : s.Sound) {sp : BitSpace} {m : Memory 8} (hwf : m.wf = true)
    (hwithin : m.within (ceil8 (s.params.qty sp.space)) = true) : (s.setBits sp m).Sound := by
  cases sp
  · exact { h with wfDI := hwf, withinDI := hwithin }
  · exact { h with wfCO := hwf, withinCO := hwithin }

theorem State.Sound.setWords (h : s.Sound) {sp : WordSpace} {m : Memory 16} (hwf : m.wf = true)
    (hwithin : m.within (s.params.qty sp.space) = true) : (s.setWords sp m).Sound := by
  cases sp
  · exact { h with wfIR := hwf, withinIR := hwithin }
  · exact { h with wfHR := hwf, withinHR := hwithin }

theorem State.Sound.loadResponse (h : s.Sound) {len : Word} (hfits : len.toNat ≤ s.params.txBufSize) :
    (s.loadResponse len).Sound :=
  { h with
    wfTx := Memory.wf_writeBytes h.wfTx _
    withinTx := Memory.within_writeBytes h.withinTx ((List.length_take_le _ _).trans hfits)
    txLen := hfits }

@[simp] theorem length_recvBytes (a : ChipAnswers) (draws m : Nat) : (recvBytes a draws m).length = m := by
  simp [recvBytes]

/-- RX_LEN is the number of bytes received, with no wrap. -/
theorem toNat_min_rxReady (w : Word) (size : Nat) : (BitVec.ofNat 16 (min w.toNat size)).toNat = min w.toNat size := by
  have := w.isLt
  rw [BitVec.toNat_ofNat, Nat.mod_eq_of_lt (by omega)]

theorem State.Sound.receive (h : s.Sound) (a : ChipAnswers) : (s.receive a).Sound :=
  { h with
    wfRx := Memory.wf_writeBytes h.wfRx _
    withinRx := Memory.within_writeBytes h.withinRx (by simp)
    rxLen := by rw [State.receive_rxLen, toNat_min_rxReady]; exact Nat.min_le_right _ _ }

/-! ### Commands and the engine -/

theorem CommandEffect.sound {i : Instr} {t : State} (heffect : CommandEffect i s t) (h : s.Sound) : t.Sound := by
  cases heffect with
  | answered => exact h.of_view rfl
  | wroteBits sp a n idx _ hidx =>
    obtain ⟨hwf, hwithin⟩ := h.bits sp
    exact (h.setBits (wf_bitWrite hwf _ _ _) (within_bitWrite hwithin (addressDecode_bound hidx) _)).of_view rfl
  | wroteWords sp a n idx _ hidx =>
    obtain ⟨hwf, hwithin⟩ := h.words sp
    exact (h.setWords (wf_wordWrite hwf _ _ _) (within_wordWrite hwithin _ (addressDecode_bound hidx))).of_view rfl
  | tookRequest => exact h.of_view rfl
  | loaded len _ _ hfits => exact (h.loadResponse hfits).of_view rfl

theorem State.Sound.engineAction (h : s.Sound) (op : EngineOp) : (engineAction op s).Sound := by
  cases op with
  | command c =>
    have haccept : (s.outside.accept c).Sound := h.outside.of_view rfl
    rcases engineAction_command_cases c s with heq | ⟨i, -, heq⟩ <;> rw [heq]
    · exact haccept.of_view rfl
    · exact (nestedCommand_effect i _).sound haccept
  | evRead => exact h.outside.of_view rfl
  | evPut v => exact h.outside.of_view rfl

theorem State.InEnvelope.engineRun (h : s.InEnvelope) (ops : List EngineOp) : (engineRun ops s).InEnvelope :=
  have hframe := EngineFrame.engineRun ops s
  { engineRun_induction (P := State.Sound) ops s (fun op _ _ ht => ht.engineAction op) h.toSound with
    svc := hframe.svc.trans h.svc
    mode := hframe.mode.trans h.mode }

/-- A command other than TCP.POLL between envelopes: TCP.SETRESP is rejected, so no response is loaded. -/
theorem CommandEffect.inv {i : Instr} {t : State} (heffect : CommandEffect i s t) (hframe : EngineFrame s t)
    (h : s.Inv) : t.Inv :=
  { heffect.sound h.toSound with
    svc := hframe.svc.trans h.svc
    mode := hframe.mode.trans h.mode
    txEn := (heffect.txEn_of_not_svc h.svc).trans h.txEn }

/-! ### The envelope -/

theorem State.Sound.phaseA (h : s.Sound) (a : ChipAnswers) : (phaseA a s).Sound :=
  have hopen : s.openEnvelope.Sound := h.outside.of_view rfl
  State.Sound.of_view (t := Machine.phaseA a s) (hopen.receive a) (State.outside_soundView _)

theorem State.InEnvelope.phaseB (h : s.InEnvelope) : (phaseB s).Inv :=
  { h.toSound.of_view (by rw [phaseB_eq]; rfl) with
    svc := phaseB_svc s
    mode := phaseB_mode s
    txEn := by rw [phaseB_eq] }

theorem State.Sound.service (h : s.Sound) (a : ChipAnswers) : (service a s).Inv :=
  have hstart : (Machine.phaseA a s).drawEngine.InEnvelope :=
    { (h.phaseA a).of_view rfl with svc := phaseA_svc a s, mode := phaseA_mode a s }
  (hstart.engineRun _).phaseB

/-! ### The poll -/

/-- The invariant carries over to every state with the same view in which no envelope is open. -/
theorem State.Inv.of_view {t : State} (h : s.Inv) (hview : t.soundView = s.soundView) (hsvc : t.svc = s.svc)
    (hmode : t.mode = s.mode) (htxEn : t.txEn = s.txEn) : t.Inv :=
  { h.toSound.of_view hview with
    svc := hsvc.trans h.svc, mode := hmode.trans h.mode, txEn := htxEn.trans h.txEn }

theorem State.Inv.issue (h : s.Inv) (op : ChipOp) : (s.issue op).Inv := h.of_view rfl rfl rfl rfl

theorem State.Inv.respond (h : s.Inv) (st : Status) (dout : List Byte) : (s.respond st dout).Inv :=
  h.of_view rfl rfl rfl rfl

/-- A re-initialisation, matched or not, clears what needs SOCK_VALID, and it clears INIT_FAILED when it sets
SOCK_VALID. -/
theorem State.Inv.reinitState (h : s.Inv) (ok : Bool) : (reinitState ok s).Inv :=
  { h with
    rxLen := Nat.zero_le _, txLen := Nat.zero_le _, connected := nofun, linkUp := nofun, txEn := rfl
    notFailed := by cases ok <;> simp [Machine.reinitState] }

theorem State.Inv.releaseSocket (h : s.Inv) : s.releaseSocket.Inv :=
  { h with notFailed := nofun, connected := nofun, linkUp := nofun }

theorem State.Inv.probe (h : s.Inv) : s.probe.Inv := by
  unfold State.probe
  split
  · exact h.issue _
  · exact h

theorem State.Inv.withLinkUp (h : s.Inv) (hvalid : s.sockValid = true) (up : Bool) :
    ({ s with linkUp := up } : State).Inv := { h with linkUp := fun _ => hvalid }

theorem State.Inv.withConnected (h : s.Inv) (hvalid : s.sockValid = true) (up : Bool) :
    ({ s with connected := up } : State).Inv := { h with connected := fun _ => hvalid }

theorem State.Inv.atStatus (h : s.Inv) (a : ChipAnswers) : (s.atStatus a).Inv := by
  by_cases hready : SocketReady a s
  · rw [atStatus_of_ready hready]
    exact (h.withLinkUp hready.1 a.linkUp).of_view rfl rfl rfl rfl
  · rw [atStatus_of_not hready]
    exact ((h.probe.reinitState true).withLinkUp rfl a.linkUp).of_view rfl rfl rfl rfl

/-- The status's action keeps the invariant; CONNECTED is set only while a socket is held. -/
theorem State.Inv.statusAction (h : s.Inv) (hvalid : s.sockValid = true) (a : ChipAnswers) (st : SockStatus) :
    (statusAction a st s).Inv := by
  cases st with
  | closed => exact (h.withConnected hvalid false).issue _
  | established =>
    have hasked := (h.withConnected hvalid true).issue .rxReady
    rw [Machine.statusAction]
    by_cases hwaiting : 0 < a.rxReady.toNat
    · rw [onEstablished_of_waiting hwaiting]
      exact (hasked.toSound.service a).issue _
    · rw [onEstablished_of_idle hwaiting]
      exact hasked.issue _
  | listen | other => exact h
  | init | closeWait => exact h.issue _

theorem State.Inv.pollSteps (h : s.Inv) (a : ChipAnswers) : (pollSteps a s).Inv := by
  rcases poll_cases a s with hreach | ⟨hready, hdrop⟩ | ⟨hready, hmismatch⟩
  · rw [pollSteps_of_reaches hreach]
    exact (h.atStatus a).statusAction (State.atStatus_sockValid a s) a _
  · rw [pollSteps_of_drop hready hdrop]
    exact (((h.issue .portActive).issue .linkStatus).issue .closeSocket).releaseSocket
  · rw [pollSteps_of_mismatch hready hmismatch]
    exact h.probe.reinitState false

/-! ### Steps -/

theorem State.Inv.exec (h : s.Inv) {i : Instr} {t : State} (hexec : exec i s = .next t) : t.Inv := by
  by_cases hi : i = .tcpPoll
  · have hdraw : s.drawChip.Inv := h.of_view rfl rfl rfl rfl
    rw [hi, exec_tcpPoll rfl h.svc] at hexec
    cases hexec
    exact (hdraw.pollSteps _).respond _ _
  · rw [exec_of_ne_tcpPoll hi] at hexec
    cases hexec
    exact (nestedCommand_effect i s).inv (.nestedCommand i s) h

theorem State.Inv.outside (h : s.Inv) : s.outside.Inv :=
  h.of_view s.outside_soundView s.outside_svc s.outside_mode s.outside_txEn

theorem State.Inv.step (h : s.Inv) {t : State} (hstep : step s = .next t) : t.Inv := by
  rcases step_cases s with heq | ⟨c, rest, heq | ⟨i, heq⟩⟩ <;> rw [heq] at hstep
  · cases hstep
    exact h.outside
  · cases hstep
    exact h.outside.of_view rfl rfl rfl rfl
  · have htaken : (s.outside.takePending c rest).Inv := h.outside.of_view rfl rfl rfl rfl
    exact htaken.exec hstep

end

/-- Settles O49: each of the step's cases keeps the invariant, a poll through the invariant of its envelope. -/
theorem stepKeepsInvariant : Obligations.StepKeepsInvariant := fun _ _ h hstep => h.step hstep

/-- Settles O32: the envelope's soundness is kept action by action; the rest is the engine's frame. -/
theorem engineKeepsEnvelope : Obligations.EngineKeepsEnvelope := by
  intro ops s h
  have hframe := EngineFrame.engineRun ops s
  exact ⟨h.engineRun ops, hframe.savedEvent, hframe.chipTrace, hframe.rxBuf, hframe.rxLen, hframe.linkUp,
    hframe.connected, hframe.sockState, hframe.txSent, hframe.pending, hframe.engine⟩

/-! ### Reset (R47) -/

theorem State.resetWith_inv {p : Params} {l : Launch} (hp : p.wf = true) (hl : l.wf p = true) :
    (State.resetWith p l).Inv := by
  simp only [Launch.wf, Bool.and_eq_true, and_assoc] at hl
  obtain ⟨hwfDI, hwfCO, hwfIR, hwfHR, hwfRx, hwfTx, hinDI, hinCO, hinIR, hinHR, hinRx, hinTx⟩ := hl
  exact ⟨⟨hp, hwfDI, hwfCO, hwfIR, hwfHR, hwfRx, hwfTx, hinDI, hinCO, hinIR, hinHR, hinRx, hinTx, rfl, rfl,
    Nat.zero_le _, Nat.zero_le _, nofun, nofun, nofun⟩, rfl, rfl, rfl⟩

/-- Settles O48: the launch of `State.reset` is well formed. -/
theorem invariantHoldsAtReset : Obligations.InvariantHoldsAtReset :=
  ⟨fun _ _ => State.resetWith_inv, State.resetWith_inv (by decide) (by decide)⟩

end Sys2Proof.Machine
end

section
/-! Polls: what each leaves, what reaches the buffers and the slot, and any number of steps (10_state R32, R43;
41_tcp_lifecycle R130 to R159). -/

namespace Sys2Proof.Machine

/-! ### A failed readback (R134, R175) -/

theorem not_readbackAgrees {p : Params} {readback cfg : NetCfg}
    (h : ∃ f ∈ p.verifyFields, fieldAgrees readback cfg f = false) : ¬ ReadbackAgrees p readback cfg := by
  obtain ⟨f, hf, hdiffers⟩ := h
  exact fun hagrees => absurd (hagrees f hf) (by simp [hdiffers])

/-- A failed re-initialisation field by field. -/
theorem reinitState_false_probe (s : State) :
    reinitState false s.probe = { s with
      linkUp := false, sockState := closedCode s.params, connected := false, txEn := false, txSent := false
      rxRecv := false, rxLen := 0#16, txLen := 0#16, initFailed := true, sockValid := false
      chipTrace := s.chipTrace ++ (if s.sockValid then [.portActive] else []) ++
        [.programConfig s.netcfg, .readConfig] } := by
  cases hvalid : s.sockValid <;>
    simp [reinitState, State.probe, State.issue, State.markInit, State.descriptorReset, hvalid]

/-- Settles O34: the mismatch is the poll's third case; with SOCK_VALID = 0 a poll programs the chip first. -/
theorem pollReadbackMismatch : Obligations.PollReadbackMismatch := by
  refine ⟨fun s a ha hsvc hready hdiffers => ?_, fun s hsvc hvalid => exec_tcpPoll_programs rfl hsvc hvalid⟩
  have hsteps : pollSteps a s.drawChip = reinitState false s.drawChip.probe :=
    pollSteps_of_mismatch hready (not_readbackAgrees hdiffers)
  rw [exec_tcpPoll ha hsvc, hsteps, reinitState_false_probe]
  rfl

/-- Settles O44: the poll's own response is OK and comes after those of the commands inside it; the flags are those of
its second and third case. -/
theorem pollNeverReportsAnError : Obligations.PollNeverReportsAnError := by
  intro s a ha hsvc
  obtain ⟨nested, hnested⟩ := pollSteps_responses a s.drawChip
  refine ⟨_, nested, exec_tcpPoll ha hsvc, ?_, fun hready hmismatch => ?_, fun hready hdrop => ?_⟩
  · rw [State.respond_responses, hnested, State.drawChip_responses]
  · rw [pollSteps_of_mismatch (s := s.drawChip) hready hmismatch]
    exact ⟨rfl, rfl⟩
  · rw [pollSteps_of_drop (s := s.drawChip) hready hdrop]
    exact ⟨rfl, rfl⟩

/-! ### ESTABLISHED (R143, R148) -/

/-- Settles O37: no bytes wait, so the status's action serves nothing. -/
theorem pollEstablishedIdle : Obligations.PollEstablishedIdle := by
  intro s B a ha hsvc hreach hB hst hidle
  have hresponses : B.responses = s.responses := by simp [hB]
  have hparams : B.params = s.params := by simp [hB]
  rw [exec_tcpPoll_of_reaches ha hsvc hreach hB, hst, statusAction, onEstablished_of_idle (by simp [hidle]),
    ← hresponses, ← hparams]
  simp [State.respond, State.issue]

/-- What an envelope leaves as it was when it opened: the engine cannot write it, and neither phase does (R43). -/
theorem service_frame (a : ChipAnswers) (s : State) :
    (service a s).params = s.params ∧ (service a s).netcfg = s.netcfg ∧ (service a s).rxEn = s.rxEn ∧
    (service a s).pending = s.pending ∧ (service a s).connected = s.connected ∧
    (service a s).sockValid = s.sockValid := by
  have hframe := EngineFrame.engineStep (phaseA a s)
  rw [service, phaseB_eq]
  simp only [hframe.params, hframe.netcfg, hframe.rxEn, hframe.pending, hframe.connected, hframe.sockValid]
  rw [phaseA_eq]
  simp

/-- One envelope uses up one engine transaction (R148). -/
theorem service_engine (a : ChipAnswers) (s : State) : (service a s).engine = s.engine.tail := by
  rw [service, phaseB_eq]
  simp only [(EngineFrame.engineStep (phaseA a s)).engine]
  rw [phaseA_eq]
  rfl

/-- The received request is what phase A stored (R149). -/
theorem service_received (a : ChipAnswers) (s : State) :
    (service a s).rxBuf = s.rxBuf.writeBytes (recvBytes a s.draws (min a.rxReady.toNat s.params.rxBufSize)) ∧
    (service a s).rxLen = BitVec.ofNat 16 (min a.rxReady.toNat s.params.rxBufSize) := by
  have hframe := EngineFrame.engineStep (phaseA a s)
  rw [service, phaseB_eq]
  simp only [hframe.rxBuf, hframe.rxLen]
  rw [phaseA_eq]
  simp

/-- Phase B sends the response that the engine's transaction has loaded, if any, and records it (R151). -/
theorem service_sends (a : ChipAnswers) (s : State) :
    ∃ sent, (service a s).chipTrace = s.chipTrace ++ .recv (min a.rxReady.toNat s.params.rxBufSize) :: sent ∧
      (service a s).txEn = false ∧
      ((service a s).txSent = false ∧ sent = [] ∨ (service a s).txSent = true ∧ ∃ bytes, sent = [.send bytes]) := by
  set E := engineStep (phaseA a s) with hE
  have hframe : EngineFrame (phaseA a s).drawEngine E := .engineStep _
  have htrace : E.chipTrace = s.chipTrace ++ [.recv (min a.rxReady.toNat s.params.rxBufSize)] := by
    rw [hframe.chipTrace, phaseA_eq]
    rfl
  have hsent : E.txSent = false := by
    rw [hframe.txSent, phaseA_eq]
    rfl
  rw [service, ← hE, phaseB_eq]
  refine ⟨if E.txEn then [.send (E.txBuf.readBytes E.txLen.toNat)] else [], by simp [htrace], rfl, ?_⟩
  cases htx : E.txEn <;> simp [hsent]

/-- The state in which a poll serves a request: ESTABLISHED has been read and bytes are waiting (R143). -/
def State.beforeService (a : ChipAnswers) (s : State) : State :=
  ({ s.atStatus a with connected := true } : State).issue .rxReady

@[simp] theorem State.beforeService_params (a : ChipAnswers) (s : State) :
    (s.beforeService a).params = s.params := s.atStatus_params a
@[simp] theorem State.beforeService_netcfg (a : ChipAnswers) (s : State) :
    (s.beforeService a).netcfg = s.netcfg := s.atStatus_netcfg a
@[simp] theorem State.beforeService_rxEn (a : ChipAnswers) (s : State) :
    (s.beforeService a).rxEn = s.rxEn := s.atStatus_rxEn a
@[simp] theorem State.beforeService_rxBuf (a : ChipAnswers) (s : State) :
    (s.beforeService a).rxBuf = s.rxBuf := s.atStatus_rxBuf a
@[simp] theorem State.beforeService_pending (a : ChipAnswers) (s : State) :
    (s.beforeService a).pending = s.pending := s.atStatus_pending a
@[simp] theorem State.beforeService_draws (a : ChipAnswers) (s : State) :
    (s.beforeService a).draws = s.draws := s.atStatus_draws a
@[simp] theorem State.beforeService_engine (a : ChipAnswers) (s : State) :
    (s.beforeService a).engine = s.engine := s.atStatus_engine a
@[simp] theorem State.beforeService_chipTrace (a : ChipAnswers) (s : State) :
    (s.beforeService a).chipTrace = (s.atStatus a).chipTrace ++ [.rxReady] := rfl

theorem pollSteps_of_opens {a : ChipAnswers} {s : State} (h : OpensEnvelope a s) :
    pollSteps a s = (service a (s.beforeService a)).issue (.setKeepalive s.params.keepalive) := by
  obtain ⟨hreach, hst, hwaiting⟩ := h
  rw [pollSteps_of_reaches hreach, hst, statusAction, onEstablished_of_waiting hwaiting, ← State.atStatus_params a s]
  rfl

/-! ### What a poll leaves (R43, R49) -/

/-- What every poll leaves, with an envelope or without. -/
theorem pollSteps_frame (a : ChipAnswers) (s : State) :
    (pollSteps a s).params = s.params ∧ (pollSteps a s).netcfg = s.netcfg ∧ (pollSteps a s).rxEn = s.rxEn ∧
    (pollSteps a s).pending = s.pending := by
  by_cases hopens : OpensEnvelope a s
  · obtain ⟨hparams, hnetcfg, hrxEn, hpending, -, -⟩ := service_frame a (s.beforeService a)
    rw [pollSteps_of_opens hopens]
    simp [hparams, hnetcfg, hrxEn, hpending]
  · have hkept := pollSteps_forgetPoll hopens
    exact ⟨(congrArg State.params hkept :), (congrArg State.netcfg hkept :), (congrArg State.rxEn hkept :),
      (congrArg State.pending hkept :)⟩

/-- Settles O45: an envelope's engine transaction is drawn once; without an envelope a poll writes only what
`forgetPoll` forgets. -/
theorem pollFrames : Obligations.PollFrames := by
  intro s a ha hsvc
  obtain ⟨hparams, hnetcfg, hrxEn, hpending⟩ := pollSteps_frame a s.drawChip
  refine ⟨_, exec_tcpPoll ha hsvc, hparams, hnetcfg, hrxEn, hpending, fun hopens => ?_, fun hopens => ?_⟩
  · rw [State.respond_engine, pollSteps_of_opens (s := s.drawChip) hopens, State.issue_engine, service_engine]
    simp
  · have hkept : (pollSteps a s.drawChip).forgetPoll = s.drawChip.forgetPoll := pollSteps_forgetPoll hopens
    have hresponses : (pollSteps a s.drawChip).responses = s.responses := (congrArg State.responses hkept :)
    exact ⟨(congrArg State.bytesDI hkept :), (congrArg State.bytesCO hkept :), (congrArg State.wordsIR hkept :),
      (congrArg State.wordsHR hkept :), (congrArg State.rxBuf hkept :), (congrArg State.txBuf hkept :),
      (congrArg State.mode hkept :), (congrArg State.svc hkept :), (congrArg State.savedEvent hkept :),
      (congrArg State.slot hkept :), (congrArg State.engine hkept :), (congrArg State.outsidePuts hkept :),
      (congrArg State.engineReads hkept :), (congrArg State.din hkept :),
      by rw [State.respond_responses, hresponses]⟩

/-! ### The received request (R149, R195, R197) -/

/-- What a poll with an envelope leaves of the slot, the mode and the request, whatever the engine and other agents
do. -/
theorem exec_tcpPoll_receives {s : State} {a : ChipAnswers} (ha : a = s.chipAnswers) (hsvc : s.svc = false)
    (hopens : OpensEnvelope a s) :
    ∃ t, exec .tcpPoll s = .next t ∧ t.mode = .rtu ∧ t.slot = slotAfter s.slot (s.outsidePuts.headD []) ∧
      t.rxBuf = s.rxBuf.writeBytes (recvBytes a (s.draws + 1) (min a.rxReady.toNat s.params.rxBufSize)) ∧
      t.rxLen = BitVec.ofNat 16 (min a.rxReady.toNat s.params.rxBufSize) := by
  obtain ⟨t, hexec, hmode, -, hsaved, hslot⟩ := exec_tcpPoll_restores ha hsvc hopens
  obtain ⟨hbuf, hlen⟩ := service_received a (s.drawChip.beforeService a)
  have hsteps := exec_tcpPoll ha hsvc
  rw [pollSteps_of_opens (s := s.drawChip) hopens, hexec] at hsteps
  obtain rfl := Host.Outcome.next.inj hsteps
  exact ⟨_, hexec, hmode, hslot.trans hsaved, by simp [hbuf], by simp [hlen]⟩

theorem getElem_recvBytes {a : ChipAnswers} {draws m j : Nat} (hj : j < (recvBytes a draws m).length)
    (hscripted : j < a.recv.length) : (recvBytes a draws m)[j] = a.recv.getD j 0#8 := by
  simp [recvBytes, hscripted]

/-- Settles O39: reading the buffer that phase A wrote. -/
theorem receivedBytesReachTheBuffer : Obligations.ReceivedBytesReachTheBuffer := by
  rintro s a m ha hinv hopens rfl
  obtain ⟨t, hexec, -, -, hbuf, hlen⟩ := exec_tcpPoll_receives ha hinv.svc hopens
  refine ⟨t, hexec, by rw [hlen, toNat_min_rxReady], fun j hj hscripted => ?_, fun j hj => ?_⟩
  · rw [hbuf, Memory.read_writeBytes hinv.wfRx, dif_pos (by rwa [length_recvBytes]), getElem_recvBytes _ hscripted]
  · rw [hbuf, Memory.read_writeBytes hinv.wfRx, dif_neg (by rw [length_recvBytes]; omega)]

/-- Settles O41: the slot, the mode and the request are functions of what the two states share. -/
theorem postsInsideEnvelopeAreLost : Obligations.PostsInsideEnvelopeAreLost := by
  intro s eng puts hinv hopens
  obtain ⟨t, hexec, hmode, hslot, hbuf, hlen⟩ := exec_tcpPoll_receives rfl hinv.svc hopens
  obtain ⟨t', hexec', hmode', hslot', hbuf', hlen'⟩ := exec_tcpPoll_receives
    (s := { s with engine := eng, outsidePuts := s.outsidePuts.headD [] :: puts }) rfl hinv.svc hopens
  exact ⟨t, t', hexec, hexec', hslot, hslot.trans hslot'.symm, hmode.trans hmode'.symm, hbuf.trans hbuf'.symm,
    hlen.trans hlen'.symm⟩

/-! ### The response (R32, R151) -/

/-- No response is among the primitives. -/
def NoSend (ops : List ChipOp) : Prop := ∀ bytes, ChipOp.send bytes ∉ ops

theorem NoSend.append {xs ys : List ChipOp} (hx : NoSend xs) (hy : NoSend ys) : NoSend (xs ++ ys) :=
  fun bytes hmem => (List.mem_append.mp hmem).elim (hx bytes) (hy bytes)

/-- A test that only responses pass keeps none of primitives without a response. -/
theorem NoSend.filter {p : ChipOp → Bool} (hp : ∀ op, p op = true → ∃ bytes, op = .send bytes) {ops : List ChipOp}
    (h : NoSend ops) : ops.filter p = [] := by
  refine List.filter_eq_nil_iff.mpr fun op hop hpass => ?_
  obtain ⟨bytes, rfl⟩ := hp op hpass
  exact h bytes hop

theorem length_filter_le_of_noSend {p : ChipOp → Bool} (hp : ∀ op, p op = true → ∃ bytes, op = .send bytes)
    {front sent back : List ChipOp} (hfront : NoSend front) (hback : NoSend back) :
    ((front ++ sent ++ back).filter p).length ≤ sent.length := by
  rw [List.filter_append, List.filter_append, hfront.filter hp, hback.filter hp, List.nil_append, List.append_nil]
  exact List.length_filter_le _ _

theorem atStatus_chipTrace_noSend (a : ChipAnswers) (s : State) :
    ∃ front, NoSend front ∧ (s.atStatus a).chipTrace = s.chipTrace ++ front := by
  unfold State.atStatus
  split
  · exact ⟨_, by simp [NoSend], rfl⟩
  · refine ⟨_, ?_, List.append_assoc _ _ _⟩
    cases s.sockValid <;> simp [NoSend]

/-- Settles O42: phase B's send is the only one among the envelope's primitives, and TX_SENT records it. -/
theorem txSentExactlyWhenSent : Obligations.TxSentExactlyWhenSent := by
  intro s hsvc hopens
  set a := s.chipAnswers with ha
  obtain ⟨read, hread, hreadTrace⟩ := atStatus_chipTrace_noSend a s.drawChip
  obtain ⟨sent, htrace, htxEn, hsent⟩ := service_sends a (s.drawChip.beforeService a)
  have hserved : pollSteps a s.drawChip =
      (service a (s.drawChip.beforeService a)).issue (.setKeepalive s.params.keepalive) := pollSteps_of_opens hopens
  have hfront : NoSend (read ++ [.rxReady, .recv (min a.rxReady.toNat s.params.rxBufSize)]) :=
    hread.append (by simp [NoSend])
  have hback : NoSend [.setKeepalive s.params.keepalive] := by simp [NoSend]
  refine ⟨_, read ++ [.rxReady, .recv (min a.rxReady.toNat s.params.rxBufSize)] ++ sent ++
    [.setKeepalive s.params.keepalive], exec_tcpPoll ha hsvc, ?_, ?_, ?_, ?_⟩
  · rw [State.respond_chipTrace, hserved, State.issue_chipTrace, htrace]
    simp [hreadTrace]
  · rw [hserved]
    exact htxEn
  · rw [hserved, State.respond_txSent, State.issue_txSent]
    rcases hsent with ⟨htx, rfl⟩ | ⟨htx, bytes, rfl⟩
    · rw [htx, List.append_nil]
      exact ⟨nofun, fun ⟨bytes, hmem⟩ => absurd hmem (hfront.append hback bytes)⟩
    · exact ⟨fun _ => ⟨bytes, by simp⟩, fun _ => htx⟩
  · refine (length_filter_le_of_noSend (fun op hop => ?_) hfront hback).trans ?_
    · cases op with
      | send bytes => exact ⟨bytes, rfl⟩
      | _ => cases hop
    · rcases hsent with ⟨-, rfl⟩ | ⟨-, bytes, rfl⟩ <;> simp

/-! ### CONNECTED over the statuses (R158) -/

/-- CONNECTED after a status's action. -/
def connectedAfter (st : SockStatus) (before : Bool) : Bool :=
  match st with
  | .closed => false
  | .established => true
  | .init | .listen | .closeWait | .other => before

theorem statusAction_connected (a : ChipAnswers) (st : SockStatus) (s : State) :
    (statusAction a st s).connected = connectedAfter st s.connected ∧
    (statusAction a st s).sockValid = s.sockValid := by
  cases st with
  | established =>
    obtain ⟨-, -, -, -, hconnected, hvalid⟩ := service_frame a (({ s with connected := true } : State).issue .rxReady)
    rw [statusAction]
    by_cases hwaiting : 0 < a.rxReady.toNat
    · rw [onEstablished_of_waiting hwaiting]
      exact ⟨hconnected, hvalid⟩
    · rw [onEstablished_of_idle hwaiting]
      exact ⟨rfl, rfl⟩
  | _ => exact ⟨rfl, rfl⟩

/-- A descriptor reset clears CONNECTED; it happens where no usable socket is held (R132). -/
theorem State.atStatus_connected {a : ChipAnswers} {s : State} (h : s.sockValid = true → a.portActive = true) :
    (s.atStatus a).connected = (s.sockValid && s.connected) := by
  cases hvalid : s.sockValid with
  | true =>
    rw [atStatus_of_ready ⟨hvalid, h hvalid⟩]
    rfl
  | false =>
    rw [atStatus_of_not fun hready => absurd hready.1 (by simp [hvalid])]
    rfl

theorem pollSteps_svc {a : ChipAnswers} {s : State} (hsvc : s.svc = false) : (pollSteps a s).svc = false := by
  by_cases hopens : OpensEnvelope a s
  · rw [pollSteps_of_opens hopens]
    rfl
  · exact (congrArg State.svc (pollSteps_forgetPoll hopens) :).trans hsvc

/-- One poll of the sequence: it holds a socket and leaves CONNECTED as its status says. -/
theorem exec_tcpPoll_connected {s t : State} (hsvc : s.svc = false) (hreach : ReachesStatus s.chipAnswers s)
    (hport : s.sockValid = true → s.chipAnswers.portActive = true) (hexec : exec .tcpPoll s = .next t) :
    t.svc = false ∧ t.sockValid = true ∧
    t.connected = connectedAfter (statusOf s.params s.chipAnswers.status) (s.sockValid && s.connected) := by
  have hsvc' : (pollSteps s.chipAnswers s.drawChip).svc = false := pollSteps_svc hsvc
  obtain ⟨hconnected, hvalid⟩ :=
    statusAction_connected s.chipAnswers (statusOf s.params s.chipAnswers.status) (s.drawChip.atStatus s.chipAnswers)
  rw [State.atStatus_connected (s := s.drawChip) hport] at hconnected
  rw [State.atStatus_sockValid] at hvalid
  rw [exec_tcpPoll rfl hsvc] at hexec
  cases hexec
  rw [pollSteps_of_reaches (s := s.drawChip) hreach] at hsvc' ⊢
  exact ⟨hsvc', hvalid, hconnected⟩

/-- Settles O46: poll by poll; from the first one on a socket is held, so no later poll resets the descriptor. -/
theorem connectedFollowsStatusSequence : Obligations.ConnectedFollowsStatusSequence := by
  intro s0 s1 s2 s3 s4 s5 s6 hsvc0 hconnected0 hpolls
  simp only [List.forall_mem_cons, List.not_mem_nil, false_implies, implies_true, and_true] at hpolls
  obtain ⟨⟨hr0, hp0, hst0, he0⟩, ⟨hr1, hp1, hst1, he1⟩, ⟨hr2, hp2, hst2, he2⟩, ⟨hr3, hp3, hst3, he3⟩,
    ⟨hr4, hp4, hst4, he4⟩, ⟨hr5, hp5, hst5, he5⟩⟩ := hpolls
  obtain ⟨hsvc1, hvalid1, hc1⟩ := exec_tcpPoll_connected hsvc0 hr0 hp0 he0
  obtain ⟨hsvc2, hvalid2, hc2⟩ := exec_tcpPoll_connected hsvc1 hr1 hp1 he1
  obtain ⟨hsvc3, -, hc3⟩ := exec_tcpPoll_connected hsvc2 hr2 hp2 he2
  obtain ⟨hsvc4, hvalid4, hc4⟩ := exec_tcpPoll_connected hsvc3 hr3 hp3 he3
  obtain ⟨hsvc5, -, hc5⟩ := exec_tcpPoll_connected hsvc4 hr4 hp4 he4
  obtain ⟨-, -, hc6⟩ := exec_tcpPoll_connected hsvc5 hr5 hp5 he5
  simp only [hst0, hst1, hst2, hst3, hst4, hst5, connectedAfter, hvalid1, hvalid2, hvalid4,
    Bool.true_and] at hc1 hc2 hc3 hc4 hc5 hc6
  exact ⟨hc1, hc2.trans hc1, hc3.trans (hc2.trans hc1), hc4, hc5.trans hc4, hc6⟩

/-! ### Any number of steps (R147) -/

theorem exec_params {i : Instr} {s t : State} (hsvc : s.svc = false) (hexec : exec i s = .next t) :
    t.params = s.params := by
  by_cases hi : i = .tcpPoll
  · rw [hi, exec_tcpPoll rfl hsvc] at hexec
    cases hexec
    exact (pollSteps_frame _ s.drawChip).1
  · rw [exec_of_ne_tcpPoll hi] at hexec
    cases hexec
    exact (EngineFrame.nestedCommand i s).params

theorem step_params {s t : State} (hsvc : s.svc = false) (hstep : step s = .next t) : t.params = s.params := by
  rcases step_cases s with heq | ⟨c, rest, heq | ⟨i, heq⟩⟩ <;> rw [heq] at hstep
  · cases hstep
    exact s.outside_params
  · cases hstep
    exact s.outside_params
  · exact (exec_params (s := s.outside.takePending c rest) (s.outside_svc.trans hsvc) hstep).trans s.outside_params

theorem run_succ_of_next {M : Host.Core} {n : Nat} {s u : M.State} (h : M.step s = .next u) :
    M.run (n + 1) s = M.run n u := by
  rw [Host.Core.run, h]

theorem run_keeps (n : Nat) {s : State} (h : s.Inv) :
    ∃ t, Host.Core.run Sys2Proof.core n s = .next t ∧ t.Inv ∧ t.params = s.params := by
  induction n generalizing s with
  | zero => exact ⟨s, rfl, h, rfl⟩
  | succ n ih =>
    obtain ⟨u, hstep⟩ := everyStepCompletes.1 s
    obtain ⟨t, hrun, hinv, hparams⟩ := ih (h.step hstep)
    exact ⟨t, (run_succ_of_next (M := Sys2Proof.core) hstep).trans hrun, hinv,
      hparams.trans (step_params h.svc hstep)⟩

/-- Settles O50: a run keeps the invariant and the parameters, and the invariant ties NETCFG to the parameters. -/
theorem runsStayBetweenEnvelopes : Obligations.RunsStayBetweenEnvelopes := by
  intro n s h
  obtain ⟨t, hrun, hinv, hparams⟩ := run_keeps n h
  refine ⟨t, hrun, hinv, ?_, hparams⟩
  rw [hinv.netcfg, h.netcfg, hparams]

end Sys2Proof.Machine
end

section
/-! What an access depends on: reads on their own array, repeated accesses on nothing that the first one changed, and
commands on no more data than they need (20_memory R59; 30_encoding R81; 40_register_store R100). -/

namespace Sys2Proof.Machine

/-! ### Reads (R100) -/

/-- The answer to a read of a bit space, in every state that agrees with `s` on that space. -/
theorem exec_readInstr_bits_agrees (s : State) (sp : BitSpace) (a n : Word) :
    ∃ r : Response, ∀ s' : State, s'.params = s.params → s'.bits sp = s.bits sp →
      exec (readInstr sp.space a n) s' = .next { s' with responses := s'.responses ++ [r] } := by
  by_cases h : InRange s.params sp.space a n
  · refine ⟨⟨.ok, bitRead (s.bits sp) (a.toNat - s.params.start sp.space) n.toNat⟩, fun s' hparams hbits => ?_⟩
    rw [← hparams, ← hbits]
    exact exec_readInstr_bits (hparams ▸ h)
  · exact ⟨⟨.noSuchRegister, []⟩, fun s' hparams _ => exec_readInstr_of_not_inRange (hparams ▸ h)⟩

/-- The answer to a read of a word space, in every state that agrees with `s` on that space. -/
theorem exec_readInstr_words_agrees (s : State) (sp : WordSpace) (a n : Word) :
    ∃ r : Response, ∀ s' : State, s'.params = s.params → s'.words sp = s.words sp →
      exec (readInstr sp.space a n) s' = .next { s' with responses := s'.responses ++ [r] } := by
  by_cases h : InRange s.params sp.space a n
  · refine ⟨⟨.ok, wordRead (s.words sp) (a.toNat - s.params.start sp.space) n.toNat⟩, fun s' hparams hwords => ?_⟩
    rw [← hparams, ← hwords]
    exact exec_readInstr_words (hparams ▸ h)
  · exact ⟨⟨.noSuchRegister, []⟩, fun s' hparams _ => exec_readInstr_of_not_inRange (hparams ▸ h)⟩

/-- Settles O23: both states agree with the first one on the space. -/
theorem readsSeeOnlyTheirSpace : Obligations.ReadsSeeOnlyTheirSpace := by
  refine ⟨fun s s' sp a n hparams hbits => ?_, fun s s' sp a n hparams hwords => ?_⟩
  · obtain ⟨r, hread⟩ := exec_readInstr_bits_agrees s sp a n
    exact ⟨r, hread s rfl rfl, hread s' hparams.symm hbits.symm⟩
  · obtain ⟨r, hread⟩ := exec_readInstr_words_agrees s sp a n
    exact ⟨r, hread s rfl rfl, hread s' hparams.symm hwords.symm⟩

/-! ### Repeated accesses (R59) -/

/-- A register read and STAT.RD answer alike whatever responses were given before. -/
theorem exec_of_read {i : Instr} (hi : i = .statRd ∨ ∃ sp a n, i = readInstr sp a n) (s : State) :
    ∃ r : Response, ∀ earlier, exec i { s with responses := earlier } =
      .next { s with responses := earlier ++ [r] } := by
  rcases hi with rfl | ⟨sp, a, n, rfl⟩
  · exact ⟨⟨.ok, snapshot s⟩, fun _ => rfl⟩
  · rcases space_cases sp with ⟨bs, rfl⟩ | ⟨ws, rfl⟩
    · obtain ⟨r, hread⟩ := exec_readInstr_bits_agrees s bs a n
      exact ⟨r, fun earlier => hread _ rfl (by cases bs <;> rfl)⟩
    · obtain ⟨r, hread⟩ := exec_readInstr_words_agrees s ws a n
      exact ⟨r, fun earlier => hread _ rfl (by cases ws <;> rfl)⟩

theorem bitWrite_bitWrite {m : Memory 8} (hm : m.wf = true) (idx n : Nat) (d : List Byte) :
    bitWrite (bitWrite m idx n d) idx n d = bitWrite m idx n d := by
  have hwritten := wf_bitWrite hm idx n d
  refine eq_of_readBit (wf_bitWrite hwritten idx n d) hwritten fun i => ?_
  rw [readBit_bitWrite hwritten, readBit_bitWrite hm]
  split <;> rfl

theorem wordWrite_wordWrite {m : Memory 16} (hm : m.wf = true) (idx n : Nat) (d : List Byte) :
    wordWrite (wordWrite m idx d n) idx d n = wordWrite m idx d n := by
  have hwritten := wf_wordWrite hm idx d n
  refine Memory.eq_of_read (wf_wordWrite hwritten idx d n) hwritten fun i => ?_
  rw [read_wordWrite hwritten, read_wordWrite hm]
  split <;> rfl

/-- A write without an error cause passes its range and has its data. -/
theorem writeError_eq_none {s : State} {sp : Space} {a n : Word} {need : Nat} (h : writeError s sp a n need = none) :
    InRange s.params sp a n ∧ need ≤ s.din.length := by
  unfold writeError at h
  split at h
  · cases h
  next hr =>
  split at h
  · cases h
  next hdin => exact ⟨not_not.mp hr, Nat.not_lt.mp hdin⟩

/-- An error cause does not depend on the responses given before. -/
theorem firstError_respond (i : Instr) (st : Status) (dout : List Byte) (s : State) :
    firstError i (s.respond st dout) = firstError i s := by
  cases i <;> rfl

/-- A register write repeated with the same data changes nothing but the responses. -/
theorem exec_writeInstr_twice {s : State} (h : s.Sound) (sp : Space) (a n : Word) :
    ∃ t r, exec (writeInstr sp a n) s = .next t ∧
      exec (writeInstr sp a n) t = .next { t with responses := t.responses ++ [r] } := by
  cases herror : firstError (writeInstr sp a n) s with
  | some st =>
    exact ⟨s.reject st, ⟨st, []⟩, exec_of_firstError herror,
      exec_of_firstError ((firstError_respond _ _ _ s).trans herror)⟩
  | none =>
    rw [firstError_writeInstr] at herror
    obtain ⟨hr, hdin⟩ := writeError_eq_none herror
    rcases space_cases sp with ⟨bs, rfl⟩ | ⟨ws, rfl⟩
    · rw [dinNeeded_writeInstr_bits] at hdin
      refine ⟨_, ⟨.ok, []⟩, exec_writeInstr_bits hr hdin, ?_⟩
      rw [exec_writeInstr_bits (by simpa using hr) (by simpa using hdin)]
      simp only [State.respond_bits, State.setBits_bits, State.respond_params, State.setBits_params, State.respond_din,
        State.setBits_din, bitWrite_bitWrite (h.bits bs).1]
      cases bs <;> rfl
    · rw [dinNeeded_writeInstr_words] at hdin
      refine ⟨_, ⟨.ok, []⟩, exec_writeInstr_words hr hdin, ?_⟩
      rw [exec_writeInstr_words (by simpa using hr) (by simpa using hdin)]
      simp only [State.respond_words, State.setWords_words, State.respond_params, State.setWords_params,
        State.respond_din, State.setWords_din, wordWrite_wordWrite (h.words ws).1]
      cases ws <;> rfl

/-- Settles O24: the second read sees a state that differs in its responses alone; the second write stores what its
array holds already. -/
theorem repeatedAccessIsIdempotent : Obligations.RepeatedAccessIsIdempotent := by
  refine ⟨fun s i hi => ?_, fun s sp a n h => exec_writeInstr_twice h sp a n⟩
  obtain ⟨r, hread⟩ := exec_of_read hi s
  refine ⟨_, r, hread s.responses, rfl, (hread (s.responses ++ [r])).trans ?_⟩
  rw [List.append_assoc]
  rfl

/-! ### Data past the length needed (R81) -/

/-- The state with another data stream. -/
def State.withDin (s : State) (din : List Byte) : State := { s with din := din }

theorem writeFull_append (m : Memory 8) (idx : Nat) {d : List Byte} {n : Nat} (hn : n ≤ d.length)
    (extra : List Byte) : writeFull m idx (d ++ extra) n = writeFull m idx d n := by
  induction n with
  | zero => rfl
  | succ n ih => rw [writeFull, writeFull, ih (by omega), List.getD_append _ _ _ _ (by omega)]

/-- A bit write takes `ceil(n/8)` bytes of its data. -/
theorem bitWrite_append (m : Memory 8) (idx : Nat) {d : List Byte} {n : Nat} (hn : ceil8 n ≤ d.length)
    (extra : List Byte) : bitWrite m idx n (d ++ extra) = bitWrite m idx n d := by
  unfold ceil8 at hn
  unfold bitWrite
  rw [writeFull_append m idx (by omega)]
  split
  · rfl
  · rw [List.getD_append _ _ _ _ (by omega)]

/-- A word write takes `2n` bytes of its data. -/
theorem wordWrite_append (m : Memory 16) (idx : Nat) {d : List Byte} {n : Nat} (hn : 2 * n ≤ d.length)
    (extra : List Byte) : wordWrite m idx (d ++ extra) n = wordWrite m idx d n := by
  induction n with
  | zero => rfl
  | succ n ih =>
    rw [wordWrite, wordWrite, ih (by omega), List.getD_append _ _ _ _ (by omega), List.getD_append _ _ _ _ (by omega)]

@[simp] theorem State.withDin_params (s : State) (d : List Byte) : (s.withDin d).params = s.params := rfl

@[simp] theorem State.withDin_svc (s : State) (d : List Byte) : (s.withDin d).svc = s.svc := rfl

@[simp] theorem State.withDin_chipAnswers (s : State) (d : List Byte) : (s.withDin d).chipAnswers = s.chipAnswers := rfl

@[simp] theorem State.withDin_din (s : State) (d : List Byte) : (s.withDin d).din = d := rfl

@[simp] theorem State.withDin_bits (s : State) (d : List Byte) (sp : BitSpace) : (s.withDin d).bits sp = s.bits sp := by
  cases sp <;> rfl

@[simp] theorem State.withDin_words (s : State) (d : List Byte) (sp : WordSpace) :
    (s.withDin d).words sp = s.words sp := by
  cases sp <;> rfl

theorem State.setBits_withDin (s : State) (d : List Byte) (sp : BitSpace) (m : Memory 8) :
    (s.withDin d).setBits sp m = (s.setBits sp m).withDin d := by
  cases sp <;> rfl

theorem State.setWords_withDin (s : State) (d : List Byte) (sp : WordSpace) (m : Memory 16) :
    (s.withDin d).setWords sp m = (s.setWords sp m).withDin d := by
  cases sp <;> rfl

theorem readBits_withDin (sp : BitSpace) (a n : Word) (s : State) (d : List Byte) :
    readBits sp a n (s.withDin d) = (readBits sp a n s).withDin d := by
  unfold readBits
  rw [State.withDin_params, State.withDin_bits]
  split <;> rfl

theorem readWords_withDin (sp : WordSpace) (a n : Word) (s : State) (d : List Byte) :
    readWords sp a n (s.withDin d) = (readWords sp a n s).withDin d := by
  unfold readWords
  rw [State.withDin_params, State.withDin_words]
  split <;> rfl

section
variable {s : State}

theorem writeBits_extra (sp : BitSpace) (a : Word) {n : Word} (hdin : ceil8 n.toNat ≤ s.din.length)
    (extra : List Byte) :
    writeBits sp a n (s.withDin (s.din ++ extra)) = (writeBits sp a n s).withDin (s.din ++ extra) := by
  unfold writeBits
  rw [State.withDin_params]
  split
  · rfl
  · rw [if_neg (by simp; omega), if_neg (by omega), State.withDin_bits, State.withDin_din, bitWrite_append _ _ hdin,
      State.setBits_withDin]
    rfl

theorem writeWords_extra (sp : WordSpace) (a : Word) {n : Word} (hdin : 2 * n.toNat ≤ s.din.length)
    (extra : List Byte) :
    writeWords sp a n (s.withDin (s.din ++ extra)) = (writeWords sp a n s).withDin (s.din ++ extra) := by
  unfold writeWords
  rw [State.withDin_params]
  split
  · rfl
  · rw [if_neg (by simp; omega), if_neg (by omega), State.withDin_words, State.withDin_din,
      wordWrite_append _ _ hdin, State.setWords_withDin]
    rfl

theorem tcpGetReq_withDin (d : List Byte) : tcpGetReq (s.withDin d) = (tcpGetReq s).withDin d := by
  unfold tcpGetReq
  rw [State.withDin_svc]
  split <;> rfl

theorem loadResponse_extra {len : Word} (hdin : len.toNat ≤ s.din.length) (extra : List Byte) :
    (s.withDin (s.din ++ extra)).loadResponse len = (s.loadResponse len).withDin (s.din ++ extra) := by
  rw [State.loadResponse, State.withDin_din, List.take_append_of_le_length hdin]
  rfl

theorem tcpSetResp_extra {len : Word} (hdin : len.toNat ≤ s.din.length) (extra : List Byte) :
    tcpSetResp len (s.withDin (s.din ++ extra)) = (tcpSetResp len s).withDin (s.din ++ extra) := by
  unfold tcpSetResp
  rw [loadResponse_extra hdin, State.withDin_params, State.withDin_svc]
  split
  · split
    · rfl
    · rw [if_neg (by simp; omega), if_neg (by omega)]
      rfl
  · rfl

/-- A command with the data it needs does the same with more. -/
theorem nestedCommand_extra {i : Instr} (hdin : dinNeeded i ≤ s.din.length) (extra : List Byte) :
    nestedCommand i (s.withDin (s.din ++ extra)) = (nestedCommand i s).withDin (s.din ++ extra) := by
  cases i with
  | regRdDI a n => exact readBits_withDin .di a n s _
  | regRdCO a n => exact readBits_withDin .co a n s _
  | regRdIR a n => exact readWords_withDin .ir a n s _
  | regRdHR a n => exact readWords_withDin .hr a n s _
  | regWrDI a n => exact writeBits_extra .di a hdin extra
  | regWrCO a n => exact writeBits_extra .co a hdin extra
  | regWrIR a n => exact writeWords_extra .ir a hdin extra
  | regWrHR a n => exact writeWords_extra .hr a hdin extra
  | tcpPoll => rfl
  | tcpGetReq => exact tcpGetReq_withDin _
  | tcpSetResp len => exact tcpSetResp_extra hdin extra
  | statRd => rfl

end

/-! A poll takes no data of its own, and each command of the engine replaces DIN by its own (R150): two polls that
differ in DIN alone end in states that do. -/

/-- The two states agree but for DIN. -/
def AgreeButDin (s t : State) : Prop := ∃ d, t = s.withDin d

section
variable {s t : State}

theorem AgreeButDin.of_eq (h : t = s) : AgreeButDin s t := ⟨s.din, h⟩

theorem AgreeButDin.issue (h : AgreeButDin s t) (op : ChipOp) : AgreeButDin (s.issue op) (t.issue op) := by
  obtain ⟨d, rfl⟩ := h
  exact ⟨d, rfl⟩

theorem AgreeButDin.outside (h : AgreeButDin s t) : AgreeButDin s.outside t.outside := by
  obtain ⟨d, rfl⟩ := h
  exact ⟨d, by simp only [State.outside_eq]; rfl⟩

theorem AgreeButDin.engineAction (h : AgreeButDin s t) (op : EngineOp) :
    AgreeButDin (engineAction op s) (engineAction op t) := by
  obtain ⟨d, hd⟩ := h.outside
  cases op with
  | command c =>
    refine .of_eq ?_
    rw [Machine.engineAction, hd]
    rfl
  | evRead => exact ⟨d, by rw [Machine.engineAction, hd]; rfl⟩
  | evPut v => exact ⟨d, by rw [Machine.engineAction, hd]; rfl⟩

theorem AgreeButDin.engineRun (h : AgreeButDin s t) (ops : List EngineOp) :
    AgreeButDin (engineRun ops s) (engineRun ops t) := by
  induction ops generalizing s t with
  | nil => exact h
  | cons op ops ih => exact ih (h.engineAction op)

theorem AgreeButDin.engineStep (h : AgreeButDin s t) : AgreeButDin (engineStep s) (engineStep t) := by
  obtain ⟨d, rfl⟩ := h
  exact AgreeButDin.engineRun ⟨d, rfl⟩ s.engineOps

theorem AgreeButDin.service (h : AgreeButDin s t) (a : ChipAnswers) : AgreeButDin (service a s) (service a t) := by
  obtain ⟨d, rfl⟩ := h
  have hphaseA : AgreeButDin (phaseA a s) (phaseA a (s.withDin d)) := ⟨d, by simp only [phaseA_eq]; rfl⟩
  obtain ⟨d', hd'⟩ := hphaseA.engineStep
  exact ⟨d', by rw [Machine.service, hd', phaseB_eq, Machine.service, phaseB_eq]; rfl⟩

theorem AgreeButDin.statusAction (h : AgreeButDin s t) (a : ChipAnswers) (st : SockStatus) :
    AgreeButDin (statusAction a st s) (statusAction a st t) := by
  obtain ⟨d, rfl⟩ := h
  cases st with
  | established =>
    rw [Machine.statusAction, Machine.statusAction]
    by_cases hwaiting : 0 < a.rxReady.toNat
    · rw [onEstablished_of_waiting hwaiting, onEstablished_of_waiting hwaiting]
      exact (AgreeButDin.service ⟨d, rfl⟩ a).issue _
    · rw [onEstablished_of_idle hwaiting, onEstablished_of_idle hwaiting]
      exact ⟨d, rfl⟩
  | _ => exact ⟨d, rfl⟩

theorem AgreeButDin.atStatus (h : AgreeButDin s t) (a : ChipAnswers) : AgreeButDin (s.atStatus a) (t.atStatus a) := by
  obtain ⟨d, rfl⟩ := h
  by_cases hready : SocketReady a s
  · have hready' : SocketReady a (s.withDin d) := hready
    exact ⟨d, by rw [State.atStatus, if_pos hready', State.atStatus, if_pos hready]; rfl⟩
  · have hready' : ¬ SocketReady a (s.withDin d) := hready
    exact ⟨d, by rw [State.atStatus, if_neg hready', State.atStatus, if_neg hready]; rfl⟩

theorem AgreeButDin.pollSteps (h : AgreeButDin s t) (a : ChipAnswers) :
    AgreeButDin (pollSteps a s) (pollSteps a t) := by
  obtain ⟨d, rfl⟩ := h
  rcases poll_cases a s with hreach | ⟨hready, hdrop⟩ | ⟨hready, hmismatch⟩
  · rw [pollSteps_of_reaches hreach, pollSteps_of_reaches (s := s.withDin d) hreach]
    exact (AgreeButDin.atStatus ⟨d, rfl⟩ a).statusAction a _
  · rw [pollSteps_of_drop hready hdrop, pollSteps_of_drop (s := s.withDin d) hready hdrop]
    exact ⟨d, rfl⟩
  · rw [pollSteps_of_mismatch hready hmismatch, pollSteps_of_mismatch (s := s.withDin d) hready hmismatch,
      reinitState_false_probe, reinitState_false_probe]
    exact ⟨d, rfl⟩

theorem AgreeButDin.tcpPoll (h : AgreeButDin s t) : AgreeButDin (tcpPoll s) (tcpPoll t) := by
  obtain ⟨d, rfl⟩ := h
  have hsteps : AgreeButDin (Machine.pollSteps s.chipAnswers s.drawChip)
      (Machine.pollSteps s.chipAnswers (s.withDin d).drawChip) := AgreeButDin.pollSteps ⟨d, rfl⟩ _
  unfold Machine.tcpPoll
  rw [State.withDin_svc, State.withDin_chipAnswers]
  split
  · exact ⟨d, rfl⟩
  · obtain ⟨d', hd'⟩ := hsteps
    exact ⟨d', by rw [hd']; rfl⟩

end

/-- Settles O11: every command but a poll reads no further than the data it needs; a poll reads none. -/
theorem extraDataIgnored : Obligations.ExtraDataIgnored := by
  refine ⟨fun i => by cases i <;> rfl, fun i s extra hdin => ?_⟩
  by_cases hi : i = .tcpPoll
  · obtain ⟨d, hd⟩ : AgreeButDin (tcpPoll s) (tcpPoll (s.withDin (s.din ++ extra))) := AgreeButDin.tcpPoll ⟨_, rfl⟩
    subst hi
    exact ⟨tcpPoll s, _, rfl, rfl, by rw [← State.withDin, hd]; rfl⟩
  · refine ⟨_, _, exec_of_ne_tcpPoll hi s, exec_of_ne_tcpPoll hi (s.withDin (s.din ++ extra)), ?_⟩
    rw [nestedCommand_extra hdin]
    rfl

end Sys2Proof.Machine
end
